-- ==== Sys2Proof/Word.lean ====
section
/-! DEFINITION. The word types of G2RX and nothing else: the 32-bit bus and sample word, the register offset and the
sample index (00_scope.md R9, R11). -/

namespace Sys2Proof

/-- A register of the window, a bus data word or a sample word: `P_REG_W` = 32 bits (R9, R65). -/
abbrev Word := BitVec 32

/-- A byte offset into the register window: `P_ADDR_W` = 12 bits (R9). -/
abbrev Offset := BitVec 12

/-- A sample index: `P_INDEX_W` = 64 bits (R9, R38). -/
abbrev Index := BitVec 64

end Sys2Proof
end

