-- ==== Sys2Proof/Config.lean ====
section
/-! DEFINITION. The implementation parameters of 00_scope.md R9, with the values the spec chooses for G2RX, and the
one the platform chooses. The widths `P_REG_W`, `P_ADDR_W`, `P_INDEX_W` are the types of Sys2Proof/Word.lean. -/

namespace Sys2Proof

/-- `P_SAMPLE_W`: the width of each of I and Q in a sample word, in two's complement (R9; 30_encoding.md R70). Reducible,
as it is a width in types. -/
abbrev Config.sampleWidth : Nat := 16

/-- `P_MAX_BURST`: the largest burst the gate can hold, in samples (R9). -/
def Config.maxBurst : Nat := 65536

/-- `P_MAX_PAYLOAD`: the largest payload bit count (R9). -/
def Config.maxPayload : Nat := 512

/-- `P_BURSTQ`: the depth of the burst queue (R9). -/
def Config.burstQDepth : Nat := 2

/-- `P_OUTQ`: the depth of the output record FIFO (R9). -/
def Config.outQDepth : Nat := 4

/-- `P_DIAGQ`: the capacity of the diagnostic queue, in sample words (R9). -/
def Config.diagQDepth : Nat := 65536

/-- `P_CNT_W`: the largest value of a 32-bit saturating event counter (R9, R40). -/
def Config.counterMax : Nat := 0xFFFFFFFF

/-- `P_PRE_MAX`: the largest preamble length, in chips (R9). -/
def Config.preambleMax : Nat := 32

/-- The number of byte offsets in the register window (R49). -/
def Config.windowBytes : Nat := 4096

/-- `P_BASE`: where the platform puts the window on the host's bus. The spec gives it no value (R9, R50), so it is
opaque and no proof can see one. Log entry 8. -/
opaque Config.base : Nat

end Sys2Proof
end

