-- ==== Sys2Proof/Syntax.lean ====
section
/-! DEFINITION. The operations of G2RX: one constructor for each row of spec/opcode_table.json. -/

namespace Sys2Proof

/-- What an agent can do to G2RX. The first eleven are the CMD words (30_encoding.md R67 to R69), the next five the
host's bus accesses (R65, R79 to R83), the last three the steps of the other agents (00_scope.md R7). -/
inductive Instr where
  /-- NOP, OP 0x00 (R94). -/
  | nop
  /-- RECOMPUTE, OP 0x01 (R85). -/
  | recompute
  /-- START, OP 0x02 (R86). -/
  | start
  /-- STOP, OP 0x03 (R87). -/
  | stop
  /-- ARM_RN16, OP 0x04 (R88). -/
  | armRn16
  /-- ARM_EPC, OP 0x05 (R89). -/
  | armEpc
  /-- DISARM, OP 0x06 (R90). -/
  | disarm
  /-- POP, OP 0x07 (R91). -/
  | pop
  /-- CLEAR_COUNTERS, OP 0x08 (R92). -/
  | clearCounters
  /-- SOFT_RESET, OP 0xA5 (R93). -/
  | softReset
  /-- Any other CMD word (R69). -/
  | cmdReserved (w : Word)
  /-- REG_READ of a word-aligned offset (R79). -/
  | regRead (off : Offset)
  /-- REG_WRITE to a word-aligned offset other than STATUS, CMD and NOISE_FLOOR (R80). -/
  | regWrite (off : Offset) (v : Word)
  /-- STATUS_W1C: a write to offset 0x008 (R81). -/
  | statusW1c (v : Word)
  /-- CMD_WRITE: a write to offset 0x00C (R83). -/
  | cmdWrite (v : Word)
  /-- NOISE_FLOOR_WRITE: a write to offset 0x090 (R82). -/
  | noiseFloorWrite (v : Word)
  /-- SAMPLE: the gate takes the word `w` from the input stream (R101). -/
  | sample (w : Word)
  /-- DECODE: the decoder takes the head burst (R141). -/
  | decode
  /-- DIAG_DRAIN: the diagnostic sink takes one entry (R145). -/
  | diagDrain
  deriving DecidableEq, Repr

end Sys2Proof
end

