-- ==== Sys2Proof/WellFormed.lean ====
section
/-! DEFINITION. Which terms of `Instr` are operations of G2RX: offsets are word-aligned (20_memory.md R52), the three
registers with rows of their own are not written by REG_WRITE (40_host_commands.md R80), and CMD_RESERVED is a word
outside the opcode list (30_encoding.md R69). -/

namespace Sys2Proof

/-- The full CMD words of 30_encoding.md R68. -/
def definedCmdWords : List Word :=
  [0x00000000, 0x00000001, 0x00000002, 0x00000003, 0x00000004, 0x00000005, 0x00000006, 0x00000007, 0x00000008,
    0x000000A5]

/-- off[1:0] = 0 (20_memory.md R52). -/
def wordAligned (off : Offset) : Bool := off.extractLsb' 0 2 == 0#2

/-- STATUS, CMD and NOISE_FLOOR have rules of their own (40_host_commands.md R80 to R83). -/
def ownWriteRow (off : Offset) : Bool := off == 0x008#12 || off == 0x00C#12 || off == 0x090#12

/-- The term is an operation of the opcode table. -/
def Instr.wf : Instr → Bool
  | .cmdReserved w => !definedCmdWords.contains w
  | .regRead off => wordAligned off
  | .regWrite off _ => wordAligned off && !ownWriteRow off
  | .nop | .recompute | .start | .stop | .armRn16 | .armEpc | .disarm | .pop | .clearCounters | .softReset => true
  | .statusW1c _ | .cmdWrite _ | .noiseFloorWrite _ | .sample _ | .decode | .diagDrain => true

end Sys2Proof
end

