-- ==== Sys2Proof/Decode.lean ====
section
/-! DEFINITION. Reading a unit of traffic as an operation (30_encoding.md R65 to R70), and writing one. A decoder tells
the format from where the word is seen (R65), so a unit carries the place where it is seen. -/

namespace Sys2Proof

/-- The direction of a host access (R65). -/
inductive Dir where
  | read
  | write
  deriving DecidableEq, Repr

/-- A host access in the BUS format (R65). `size` is its size in bytes: the interface has size 4 only (20_memory.md
R52). A read carries no data word. -/
structure Access where
  dir : Dir
  size : Nat
  off : Offset
  data : Word
  deriving DecidableEq, Repr

/-- A unit of traffic with the place where it is seen (R65), or the turn of an agent whose step has no word. -/
inductive Xfer where
  /-- BUS: a host access. -/
  | bus (a : Access)
  /-- CMD: the data word of a write to offset 0x00C, seen at the command register (log entry 7). -/
  | cmd (w : Word)
  /-- SAMPLE: a word at the head of the input stream. -/
  | sample (w : Word)
  /-- The decoder's step, which has no encoding. -/
  | decodeStep
  /-- The diagnostic sink taking an entry, which has no encoding on the way in (R71). -/
  | diagStep
  deriving DecidableEq, Repr

/-- Why a host access is outside the interface (20_memory.md R52, 93_implementation_defined.md U6). -/
inductive Reject where
  /-- The access is not a 32-bit access. -/
  | accessSize (size : Nat)
  /-- The access is at an offset with off[1:0] ≠ 0. -/
  | unaligned (off : Offset)
  deriving DecidableEq, Repr

/-- The defined opcodes (R68). -/
inductive CmdOp where
  | nop
  | recompute
  | start
  | stop
  | armRn16
  | armEpc
  | disarm
  | pop
  | clearCounters
  | softReset
  deriving DecidableEq, Repr

/-- OP, the field CMD[7:0] (R67, R68). -/
def CmdOp.code : CmdOp → BitVec 8
  | .nop => 0x00
  | .recompute => 0x01
  | .start => 0x02
  | .stop => 0x03
  | .armRn16 => 0x04
  | .armEpc => 0x05
  | .disarm => 0x06
  | .pop => 0x07
  | .clearCounters => 0x08
  | .softReset => 0xA5

/-- Every defined opcode, in the table's order. -/
def CmdOp.all : List CmdOp :=
  [.nop, .recompute, .start, .stop, .armRn16, .armEpc, .disarm, .pop, .clearCounters, .softReset]

/-- The row of the opcode table an opcode stands for. -/
def CmdOp.instr : CmdOp → Instr
  | .nop => .nop
  | .recompute => .recompute
  | .start => .start
  | .stop => .stop
  | .armRn16 => .armRn16
  | .armEpc => .armEpc
  | .disarm => .disarm
  | .pop => .pop
  | .clearCounters => .clearCounters
  | .softReset => .softReset

/-- The command a CMD word names: RSVD = CMD[31:8] must be 0 and OP must be defined (R67, R68). -/
def decodeOp (w : Word) : Option CmdOp :=
  if w.extractLsb' 8 24 = 0#24 then CmdOp.all.find? (fun op => op.code == w.extractLsb' 0 8) else none

/-- A CMD word: a command, or reserved (R69). -/
def decodeCmd (w : Word) : Instr :=
  match decodeOp w with
  | some op => op.instr
  | none => .cmdReserved w

/-- A host access: refused unless it is a 32-bit access at a word-aligned offset (20_memory.md R52). A write to STATUS,
CMD or NOISE_FLOOR is its own row (R80 to R83). -/
def decodeBus (a : Access) : Except Reject Instr :=
  if a.size ≠ 4 then .error (.accessSize a.size)
  else if !wordAligned a.off then .error (.unaligned a.off)
  else match a.dir with
    | .read => .ok (.regRead a.off)
    | .write =>
      if a.off = 0x008#12 then .ok (.statusW1c a.data)
      else if a.off = 0x00C#12 then .ok (.cmdWrite a.data)
      else if a.off = 0x090#12 then .ok (.noiseFloorWrite a.data)
      else .ok (.regWrite a.off a.data)

/-- The operation a unit stands for. Every 32-bit word is a legal sample (R70). -/
def decode : Xfer → Except Reject Instr
  | .bus a => decodeBus a
  | .cmd w => .ok (decodeCmd w)
  | .sample w => .ok (.sample w)
  | .decodeStep => .ok .decode
  | .diagStep => .ok .diagDrain

/-- The full CMD word of a command: RSVD = 0 above OP (R67, R68). -/
def CmdOp.word (op : CmdOp) : Word := op.code.setWidth 32

/-- A 32-bit read of a register (R65). -/
def Access.rd (off : Offset) : Access := { dir := .read, size := 4, off := off, data := 0 }

/-- A 32-bit write of a register (R65). -/
def Access.wr (off : Offset) (v : Word) : Access := { dir := .write, size := 4, off := off, data := v }

/-- The unit that carries an operation, written from the encodings of R65 to R70. -/
def encode : Instr → Xfer
  | .nop => .cmd CmdOp.nop.word
  | .recompute => .cmd CmdOp.recompute.word
  | .start => .cmd CmdOp.start.word
  | .stop => .cmd CmdOp.stop.word
  | .armRn16 => .cmd CmdOp.armRn16.word
  | .armEpc => .cmd CmdOp.armEpc.word
  | .disarm => .cmd CmdOp.disarm.word
  | .pop => .cmd CmdOp.pop.word
  | .clearCounters => .cmd CmdOp.clearCounters.word
  | .softReset => .cmd CmdOp.softReset.word
  | .cmdReserved w => .cmd w
  | .regRead off => .bus (Access.rd off)
  | .regWrite off v => .bus (Access.wr off v)
  | .statusW1c v => .bus (Access.wr 0x008 v)
  | .cmdWrite v => .bus (Access.wr 0x00C v)
  | .noiseFloorWrite v => .bus (Access.wr 0x090 v)
  | .sample w => .sample w
  | .decode => .decodeStep
  | .diagDrain => .diagStep

/-- Where a host bus address falls in the register window, if G2RX is addressed at all (20_memory.md R50): every
offset is relative to `P_BASE`. -/
def windowOffset (addr : Nat) : Option Offset :=
  if Config.base ≤ addr ∧ addr < Config.base + Config.windowBytes then
    some (BitVec.ofNat 12 (addr - Config.base))
  else none

/-- The unit that an opcode-table row's bits stand for. The table numbers the bits of a CMD word (32 bits) and of a BUS
offset (at most 16 bits once rounded to bytes), and gives DECODE none. It gives no bit to the direction of an access;
the model reads such a row as a write of the data word 0 (log entry 6). An offset above 0xFFF is outside the window. -/
def tableXfer (nbits w : Nat) : Option Xfer :=
  if nbits = 0 then some .decodeStep
  else if nbits ≤ 16 then
    if w < Config.windowBytes then some (.bus (Access.wr (BitVec.ofNat 12 w) 0)) else none
  else some (.cmd (BitVec.ofNat 32 w))

/-- The operation the decoder reads from an opcode-table row's bits (log entry 6). -/
def decodeTableWord (nbits w : Nat) : Option Instr :=
  match tableXfer nbits w with
  | none => none
  | some u => (decode u).toOption

end Sys2Proof
end

