-- ==== Sys2Proof/Machine/State.lean ====
section
/-! DEFINITION. Every piece of state the spec gives G2RX (10_state.md), the reasons a step can stop, and the state after
hard reset (70_reset_and_hazards.md R166). All of it is plain data. -/

namespace Sys2Proof.Machine

/-- Why the machine would stop with a fault. There is no reason: "G2RX has no trap mechanism" (60_exceptions.md R146,
93_implementation_defined.md "no case here is a `fault`"). -/
inductive Fault where
  deriving DecidableEq, Repr

/-- Why a step gives an access no meaning. -/
inductive Refusal where
  /-- Raised by `exec` for an instruction that has no meaning yet. No arm raises it. Safe: the machine stops. -/
  | notModelled (mnemonic : String)
  /-- Raised by a host access of a size other than 4 bytes: outside the interface (20_memory.md R52, U6). Safe. -/
  | accessSize (size : Nat)
  /-- Raised by a host access at an offset with off[1:0] ≠ 0: outside the interface (20_memory.md R52, U6). Safe. -/
  | unaligned (off : Offset)
  deriving DecidableEq, Repr

/-- What kind of reply the host expects (10_state.md R44). -/
inductive Expect where
  | none
  | rn16
  | epc
  deriving DecidableEq, Repr

/-- The gate's two states (R43). -/
inductive GateState where
  | searching
  | accumulating
  deriving DecidableEq, Repr

/-- The interrupt enables, bits 2, 3 and 4 of IRQ_EN (R22). Its other bits are reserved and hold nothing. -/
structure IrqEnable where
  cfgErrEn : Bool
  cmdErrEn : Bool
  frameEn : Bool
  deriving DecidableEq, Repr

/-- The configuration registers at offsets 0x020 to 0x074, each as wide as its field (R24 to R33). -/
structure BaseConfig where
  adcRate : BitVec 32
  decim : BitVec 16
  blf : BitVec 32
  lineCode : BitVec 2
  preambleChips : BitVec 32
  preambleLen : BitVec 6
  syncSearch : BitVec 32
  syncThr : BitVec 9
  epcBits : BitVec 10
  crcPoly : BitVec 16
  crcInit : BitVec 16
  crcXorout : BitVec 16
  enterScale : BitVec 16
  exitScale : BitVec 16
  enterBias : BitVec 32
  exitBias : BitVec 32
  dwell : BitVec 32
  minLen : BitVec 32
  maxLen : BitVec 32
  nfShift : BitVec 4
  collConfThr : BitVec 32
  collThr : BitVec 16
  deriving DecidableEq, Repr

/-- The derived registers (R35). -/
structure Derived where
  sampleRate : Word
  sps : Word
  halfBit : Word
  syncWindow : Word
  deriving DecidableEq, Repr

/-- The event counters at offsets 0x0B0 to 0x0D0 (R40). -/
structure Counters where
  bursts : Word
  tooShort : Word
  forced : Word
  syncFail : Word
  lenMismatch : Word
  crcOk : Word
  crcBad : Word
  unsolicited : Word
  collision : Word
  deriving DecidableEq, Repr

/-- The gate's five parts (R43). -/
structure Gate where
  gst : GateState
  gStart : Index
  gBuf : List Word
  gQuiet : Nat
  gHint : Expect
  deriving DecidableEq, Repr

/-- A burst: the samples with indices `startIndex` to `endIndex` − 1, the expectation at its first sample, and whether
it was cut at MAX_LEN (R45). -/
structure Burst where
  startIndex : Index
  endIndex : Index
  samples : List Word
  hint : Expect
  forced : Bool
  deriving DecidableEq, Repr

/-- The status codes of a record that occur (30_encoding.md R72, R75). -/
inductive RecStatus where
  | frameOk
  | crcInvalid
  | syncFailure
  | lengthMismatch
  | unsolicited
  deriving DecidableEq, Repr

/-- The kinds of a record (R72, R76). -/
inductive Kind where
  | unknown
  | rn16
  | epc
  deriving DecidableEq, Repr

/-- An entry of the output FIFO (10_state.md R46; 30_encoding.md R72 to R74). `payload` is the payload words 0 to 15
side by side, word 0 in its top 32 bits, so payload bit b_j is its bit 511 − j (log entry 10). -/
structure Record where
  valid : Bool
  status : RecStatus
  kind : Kind
  crcValid : Bool
  collision : Bool
  polarity : Bool
  hint : Expect
  payloadLen : BitVec 10
  startIndex : Index
  endIndex : Index
  crcCalc : BitVec 16
  crcRx : BitVec 16
  violCount : BitVec 16
  lowconfCount : BitVec 16
  syncOffset : Word
  syncQ : BitVec 9
  payload : BitVec 512
  deriving DecidableEq, Repr

/-- An entry of the diagnostic queue and of the diagnostic stream (10_state.md R47; 30_encoding.md R71). -/
structure DiagEntry where
  word : Word
  last : Bool
  deriving DecidableEq, Repr

/-- Whose turn it is (00_scope.md R7). The model's own: log entry 1. -/
inductive Turn where
  /-- The host issues an access. -/
  | host (a : Access)
  /-- The host issues the write of a CMD word, seen at the command register (log entry 7). -/
  | command (w : Word)
  /-- The sample source offers the head of the input stream to the gate. -/
  | source
  /-- The decoder takes its step. -/
  | decoder
  /-- The diagnostic sink takes its step. -/
  | sink
  /-- The platform's reset input to G2RX (70_reset_and_hazards.md R166; log entry 9). -/
  | platformReset
  deriving DecidableEq, Repr

/-- The state of G2RX, and of the outside world as far as its streams and its host go. -/
structure State where
  /-- STATUS.RUNNING (R20, R42). -/
  running : Bool
  /-- STATUS.CONFIG_OK (R20). -/
  configOk : Bool
  /-- STATUS.CONFIG_ERR (R20). -/
  configErr : Bool
  /-- STATUS.CMD_ERR (R20). -/
  cmdErr : Bool
  /-- IRQ_EN (R22). -/
  irqEn : IrqEnable
  /-- CTRL.DIAG_EN (R23). -/
  diagEn : Bool
  /-- The values the host writes (R24 to R33). -/
  base : BaseConfig
  /-- The copy the datapath uses (R34). -/
  active : BaseConfig
  /-- SAMPLE_RATE, SPS, HALF_BIT and SYNC_WINDOW (R35). -/
  derived : Derived
  /-- NOISE_FLOOR (R36). -/
  nf : Word
  /-- SAMPLE_INDEX (R38). -/
  sampleIndex : Index
  /-- The event counters (R40). -/
  counters : Counters
  /-- The gate (R43). -/
  gate : Gate
  /-- The expectation the host last set (R44). -/
  expect : Expect
  /-- The burst queue, head first (R45). -/
  bq : List Burst
  /-- The output FIFO, head first (R46). -/
  oq : List Record
  /-- The diagnostic queue, head first (R47). -/
  dq : List DiagEntry
  /-- What the last host read returned (40_host_commands.md R79). The model's own: log entry 4. -/
  rdata : Word
  /-- What the diagnostic sink has taken, oldest first (20_memory.md R49). The model's own: log entry 5. -/
  delivered : List DiagEntry
  /-- What the sample source has still to hand over, next word first (R49). The model's own: log entry 3. -/
  input : List Word
  /-- Whose turns come next, in order (00_scope.md R7). The model's own: log entry 1. -/
  turns : List Turn
  deriving DecidableEq, Repr

/-- The base configuration after hard reset (70_reset_and_hazards.md R166). -/
def BaseConfig.reset : BaseConfig where
  adcRate := 0
  decim := 1
  blf := 0
  lineCode := 0
  preambleChips := 0
  preambleLen := 0
  syncSearch := 0
  syncThr := 192
  epcBits := 112
  crcPoly := 0x1021
  crcInit := 0xFFFF
  crcXorout := 0xFFFF
  enterScale := 0x0400
  exitScale := 0x0200
  enterBias := 1
  exitBias := 0
  dwell := 8
  minLen := 16
  maxLen := 65536
  nfShift := 4
  collConfThr := 0
  collThr := 1

/-- Every event counter at 0 (R40). -/
def Counters.zero : Counters where
  bursts := 0
  tooShort := 0
  forced := 0
  syncFail := 0
  lenMismatch := 0
  crcOk := 0
  crcBad := 0
  unsolicited := 0
  collision := 0

/-- The gate in SEARCHING with nothing accumulated (R43). -/
def Gate.idle : Gate where
  gst := .searching
  gStart := 0
  gBuf := []
  gQuiet := 0
  gHint := .none

/-- The machine right after hard reset (70_reset_and_hazards.md R166), with nothing on its streams, no turn waiting
and nothing read yet (log entries 1, 3, 4, 5). -/
def State.reset : State where
  running := false
  configOk := false
  configErr := false
  cmdErr := false
  irqEn := { cfgErrEn := false, cmdErrEn := false, frameEn := false }
  diagEn := false
  base := BaseConfig.reset
  active := BaseConfig.reset
  derived := { sampleRate := 0, sps := 0, halfBit := 0, syncWindow := 0 }
  nf := 0
  sampleIndex := 0
  counters := Counters.zero
  gate := Gate.idle
  expect := .none
  bq := []
  oq := []
  dq := []
  rdata := 0
  delivered := []
  input := []
  turns := []

end Sys2Proof.Machine
end

