-- ==== Sys2Proof/Machine/Registers.lean ====
section
/-! DEFINITION. The register map of 30_encoding.md R66: the names of the registers and their offsets. -/

namespace Sys2Proof.Machine

/-- The base configuration registers, offsets 0x020 to 0x074 (10_state.md R24 to R33). -/
inductive BaseReg where
  | adcRate
  | decim
  | blf
  | lineCode
  | preambleChips
  | preambleLen
  | syncSearch
  | syncThr
  | epcBits
  | crcPoly
  | crcInit
  | crcXorout
  | enterScale
  | exitScale
  | enterBias
  | exitBias
  | dwell
  | minLen
  | maxLen
  | nfShift
  | collConfThr
  | collThr
  deriving DecidableEq, Repr

/-- The event counters, offsets 0x0B0 to 0x0D0 (R40). -/
inductive CounterReg where
  | bursts
  | tooShort
  | forced
  | syncFail
  | lenMismatch
  | crcOk
  | crcBad
  | unsolicited
  | collision
  deriving DecidableEq, Repr

/-- Every register of the window (30_encoding.md R66). -/
inductive Reg where
  | id
  | version
  | status
  | cmd
  | irqEn
  | ctrl
  | base (b : BaseReg)
  | sampleRate
  | sps
  | halfBit
  | syncWindow
  | noiseFloor
  | enterThr
  | exitThr
  | sampleIndexLo
  | sampleIndexHi
  | burstStartLo
  | burstStartHi
  | cnt (c : CounterReg)
  | outHdr
  | outStartLo
  | outStartHi
  | outEndLo
  | outEndHi
  | outCrc
  | outColl
  | outSyncOffset
  | outSyncQ
  | outData (i : Fin 16)
  deriving DecidableEq, Repr

/-- The offset of a base configuration register (R66). -/
def BaseReg.offset : BaseReg → Offset
  | .adcRate => 0x020
  | .decim => 0x024
  | .blf => 0x028
  | .lineCode => 0x02C
  | .preambleChips => 0x030
  | .preambleLen => 0x034
  | .syncSearch => 0x038
  | .syncThr => 0x03C
  | .epcBits => 0x040
  | .crcPoly => 0x044
  | .crcInit => 0x048
  | .crcXorout => 0x04C
  | .enterScale => 0x050
  | .exitScale => 0x054
  | .enterBias => 0x058
  | .exitBias => 0x05C
  | .dwell => 0x060
  | .minLen => 0x064
  | .maxLen => 0x068
  | .nfShift => 0x06C
  | .collConfThr => 0x070
  | .collThr => 0x074

/-- The offset of an event counter (R40, R66). -/
def CounterReg.offset : CounterReg → Offset
  | .bursts => 0x0B0
  | .tooShort => 0x0B4
  | .forced => 0x0B8
  | .syncFail => 0x0BC
  | .lenMismatch => 0x0C0
  | .crcOk => 0x0C4
  | .crcBad => 0x0C8
  | .unsolicited => 0x0CC
  | .collision => 0x0D0

/-- The offset of a register (R66). -/
def Reg.offset : Reg → Offset
  | .id => 0x000
  | .version => 0x004
  | .status => 0x008
  | .cmd => 0x00C
  | .irqEn => 0x010
  | .ctrl => 0x014
  | .base b => b.offset
  | .sampleRate => 0x080
  | .sps => 0x084
  | .halfBit => 0x088
  | .syncWindow => 0x08C
  | .noiseFloor => 0x090
  | .enterThr => 0x094
  | .exitThr => 0x098
  | .sampleIndexLo => 0x0A0
  | .sampleIndexHi => 0x0A4
  | .burstStartLo => 0x0A8
  | .burstStartHi => 0x0AC
  | .cnt c => c.offset
  | .outHdr => 0x100
  | .outStartLo => 0x104
  | .outStartHi => 0x108
  | .outEndLo => 0x10C
  | .outEndHi => 0x110
  | .outCrc => 0x114
  | .outColl => 0x118
  | .outSyncOffset => 0x11C
  | .outSyncQ => 0x120
  | .outData i => BitVec.ofNat 12 (0x140 + 4 * i.val)

/-- Every base configuration register, in the order of the map. -/
def BaseReg.all : List BaseReg :=
  [.adcRate, .decim, .blf, .lineCode, .preambleChips, .preambleLen, .syncSearch, .syncThr, .epcBits, .crcPoly, .crcInit,
    .crcXorout, .enterScale, .exitScale, .enterBias, .exitBias, .dwell, .minLen, .maxLen, .nfShift, .collConfThr,
    .collThr]

/-- Every event counter, in the order of the map. -/
def CounterReg.all : List CounterReg :=
  [.bursts, .tooShort, .forced, .syncFail, .lenMismatch, .crcOk, .crcBad, .unsolicited, .collision]

/-- Every register of the window, in the order of the map. -/
def Reg.all : List Reg :=
  [.id, .version, .status, .cmd, .irqEn, .ctrl] ++ BaseReg.all.map .base
    ++ [.sampleRate, .sps, .halfBit, .syncWindow, .noiseFloor, .enterThr, .exitThr, .sampleIndexLo, .sampleIndexHi,
      .burstStartLo, .burstStartHi]
    ++ CounterReg.all.map .cnt
    ++ [.outHdr, .outStartLo, .outStartHi, .outEndLo, .outEndHi, .outCrc, .outColl, .outSyncOffset, .outSyncQ]
    ++ (List.finRange 16).map .outData

/-- The register at an offset, or none if the offset is reserved (20_memory.md R50). 0x09C is in no list, so it is
reserved too (DEDUCED, log entry 14). -/
def Reg.ofOffset (off : Offset) : Option Reg := Reg.all.find? (fun r => r.offset == off)

end Sys2Proof.Machine
end

