-- ==== Sys2Proof/Machine/Operands.lean ====
section
/-! DEFINITION. The operand forms of G2RX: the two halves of a sample word (30_encoding.md R70), the codes of the
enumerated fields (R72, R75, R76), the values of the configuration fields (R77), and a register field's write (40 R80). -/

namespace Sys2Proof.Machine

/-- I = sext_16(w[15:0]), the low `P_SAMPLE_W` bits (R70; 00_scope.md R9). -/
def sampleI (w : Word) : Int := (w.extractLsb' 0 Config.sampleWidth).toInt

/-- Q = sext_16(w[31:16]), the `P_SAMPLE_W` bits above I (R70; 00_scope.md R9). -/
def sampleQ (w : Word) : Int := (w.extractLsb' Config.sampleWidth Config.sampleWidth).toInt

/-- The detector statistic I·I + Q·Q (41_gate.md R95). -/
def mag (w : Word) : Nat := (sampleI w * sampleI w + sampleQ w * sampleQ w).toNat

/-- The code of an expectation in STATUS.EXPECT and OUT_HDR.HINT (10_state.md R44; 30_encoding.md R72). -/
def Expect.code : Expect → BitVec 2
  | .none => 0
  | .rn16 => 1
  | .epc => 2

/-- The code of a record status in OUT_HDR.STATUS (R72, R75). -/
def RecStatus.code : RecStatus → BitVec 3
  | .frameOk => 0
  | .crcInvalid => 1
  | .syncFailure => 2
  | .lengthMismatch => 3
  | .unsolicited => 4

/-- The code of a kind in OUT_HDR.KIND (R72, R76). -/
def Kind.code : Kind → BitVec 2
  | .unknown => 0
  | .rn16 => 1
  | .epc => 2

/-- The kind of a frame decoded with a hint: it equals the hint (R76). -/
def Expect.kind : Expect → Kind
  | .none => .unknown
  | .rn16 => .rn16
  | .epc => .epc

/-- M = 2^LINE_CODE (10_state.md R25). -/
def BaseConfig.cyclesPerBit (b : BaseConfig) : Nat := 2 ^ b.lineCode.toNat

/-- What a read of a base configuration register gives: its field, and 0 above it (R77, section 3 of 10_state.md). -/
def BaseConfig.get (b : BaseConfig) : BaseReg → Word
  | .adcRate => b.adcRate
  | .decim => b.decim.setWidth 32
  | .blf => b.blf
  | .lineCode => b.lineCode.setWidth 32
  | .preambleChips => b.preambleChips
  | .preambleLen => b.preambleLen.setWidth 32
  | .syncSearch => b.syncSearch
  | .syncThr => b.syncThr.setWidth 32
  | .epcBits => b.epcBits.setWidth 32
  | .crcPoly => b.crcPoly.setWidth 32
  | .crcInit => b.crcInit.setWidth 32
  | .crcXorout => b.crcXorout.setWidth 32
  | .enterScale => b.enterScale.setWidth 32
  | .exitScale => b.exitScale.setWidth 32
  | .enterBias => b.enterBias
  | .exitBias => b.exitBias
  | .dwell => b.dwell
  | .minLen => b.minLen
  | .maxLen => b.maxLen
  | .nfShift => b.nfShift.setWidth 32
  | .collConfThr => b.collConfThr
  | .collThr => b.collThr.setWidth 32

/-- A write of a base configuration register stores v's low bits up to the field width (40_host_commands.md R80). -/
def BaseConfig.set (b : BaseConfig) (r : BaseReg) (v : Word) : BaseConfig :=
  match r with
  | .adcRate => { b with adcRate := v }
  | .decim => { b with decim := v.setWidth 16 }
  | .blf => { b with blf := v }
  | .lineCode => { b with lineCode := v.setWidth 2 }
  | .preambleChips => { b with preambleChips := v }
  | .preambleLen => { b with preambleLen := v.setWidth 6 }
  | .syncSearch => { b with syncSearch := v }
  | .syncThr => { b with syncThr := v.setWidth 9 }
  | .epcBits => { b with epcBits := v.setWidth 10 }
  | .crcPoly => { b with crcPoly := v.setWidth 16 }
  | .crcInit => { b with crcInit := v.setWidth 16 }
  | .crcXorout => { b with crcXorout := v.setWidth 16 }
  | .enterScale => { b with enterScale := v.setWidth 16 }
  | .exitScale => { b with exitScale := v.setWidth 16 }
  | .enterBias => { b with enterBias := v }
  | .exitBias => { b with exitBias := v }
  | .dwell => { b with dwell := v }
  | .minLen => { b with minLen := v }
  | .maxLen => { b with maxLen := v }
  | .nfShift => { b with nfShift := v.setWidth 4 }
  | .collConfThr => { b with collConfThr := v }
  | .collThr => { b with collThr := v.setWidth 16 }

/-- What a read of an event counter gives (10_state.md R40). -/
def Counters.get (c : Counters) : CounterReg → Word
  | .bursts => c.bursts
  | .tooShort => c.tooShort
  | .forced => c.forced
  | .syncFail => c.syncFail
  | .lenMismatch => c.lenMismatch
  | .crcOk => c.crcOk
  | .crcBad => c.crcBad
  | .unsolicited => c.unsolicited
  | .collision => c.collision

end Sys2Proof.Machine
end

