-- ==== Sys2Proof/Machine/Ops.lean ====
section
/-! DEFINITION. The operations over state that the meanings share: counting (10_state.md R40), recording an event
(60_exceptions.md R147), discarding in-flight work and resetting (40_host_commands.md R87, R93; 70 R166). -/

namespace Sys2Proof.Machine

/-- `sat(x + 1)`: one more, saturating at 0xFFFFFFFF (10_state.md R40; 41_gate.md R106). -/
def satInc (c : Word) : Word := BitVec.ofNat 32 (min (c.toNat + 1) Config.counterMax)

/-- One event counter incremented, the others as they were (R40). -/
def Counters.bump (c : Counters) (r : CounterReg) : Counters :=
  match r with
  | .bursts => { c with bursts := satInc c.bursts }
  | .tooShort => { c with tooShort := satInc c.tooShort }
  | .forced => { c with forced := satInc c.forced }
  | .syncFail => { c with syncFail := satInc c.syncFail }
  | .lenMismatch => { c with lenMismatch := satInc c.lenMismatch }
  | .crcOk => { c with crcOk := satInc c.crcOk }
  | .crcBad => { c with crcBad := satInc c.crcBad }
  | .unsolicited => { c with unsolicited := satInc c.unsolicited }
  | .collision => { c with collision := satInc c.collision }

/-- One event counter of the machine incremented. -/
def State.count (r : CounterReg) (s : State) : State := { s with counters := s.counters.bump r }

/-- The events of 60_exceptions.md R147. RetriesExhausted is not among them: G2RX never raises it (R155). -/
inductive Event where
  | burstTooShort
  | crcInvalid
  | syncFailure
  | frameLengthMismatch
  | unsolicited
  | configurationInvalid
  | commandError
  deriving DecidableEq, Repr

/-- Raising an event, which is what G2RX has in place of taking an exception: it records the event as R147 gives and
never transfers control (R146). The record an event of the decoder also makes is pushed by DECODE (43 R141). -/
def State.raise (e : Event) (s : State) : State :=
  match e with
  | .burstTooShort => s.count .tooShort
  | .crcInvalid => s.count .crcBad
  | .syncFailure => s.count .syncFail
  | .frameLengthMismatch => s.count .lenMismatch
  | .unsolicited => s.count .unsolicited
  | .configurationInvalid => { s with configErr := true, configOk := false }
  | .commandError => { s with cmdErr := true }

/-- The queue `q` holds its whole capacity (00_scope.md R15). -/
def burstQFull (s : State) : Bool := s.bq.length == Config.burstQDepth

/-- `full(oq)` (R15). -/
def outQFull (s : State) : Bool := s.oq.length == Config.outQDepth

/-- What STOP and SOFT_RESET both do: halt, and discard the gate's partial burst and the queued bursts
(40_host_commands.md R87, R93). -/
def State.flush (s : State) : State := { s with running := false, gate := Gate.idle, bq := [] }

/-- SOFT_RESET: the runtime state goes to its hard-reset value, and what the host programmed stays (R93; 70 R168). -/
def State.softReset (s : State) : State :=
  { s.flush with
    oq := []
    dq := []
    nf := 0
    sampleIndex := 0
    expect := .none
    counters := Counters.zero
    configErr := false
    cmdErr := false }

/-- Hard reset of G2RX: every piece of its state at the value of 70_reset_and_hazards.md R166. What lies outside the
block (the source's samples, the turns to come, what the host and the sink already have) stays: log entry 9. -/
def State.hardReset (s : State) : State :=
  { State.reset with rdata := s.rdata, delivered := s.delivered, input := s.input, turns := s.turns }

end Sys2Proof.Machine
end

