-- ==== Sys2Proof/Machine/Configure.lean ====
section
/-! DEFINITION. The configuration check and the derived values (40_host_commands.md R84, R85). -/

namespace Sys2Proof.Machine

/-- SR := ADC_RATE / DECIM (R84 V4). -/
def BaseConfig.rate (b : BaseConfig) : Nat := b.adcRate.toNat / b.decim.toNat

/-- SPS := SR / BLF (R84 V5). -/
def BaseConfig.samplesPerSymbol (b : BaseConfig) : Nat := b.rate / b.blf.toNat

/-- Hb := M · SPS / 2 (R84 V6). -/
def BaseConfig.halfBitLen (b : BaseConfig) : Nat := b.cyclesPerBit * b.samplesPerSymbol / 2

/-- W := SYNC_SEARCH, or two chips when SYNC_SEARCH = 0 (R84 V8; 10_state.md R27). -/
def BaseConfig.window (b : BaseConfig) : Nat :=
  if b.syncSearch.toNat ≠ 0 then b.syncSearch.toNat else 2 * b.halfBitLen

/-- The checks V1 to V6, on the rates (R84). -/
def BaseConfig.ratesValid (b : BaseConfig) : Bool :=
  decide (1 ≤ b.decim.toNat)
    && decide (1 ≤ b.blf.toNat)
    && decide (1 ≤ b.adcRate.toNat) && decide (b.adcRate.toNat % b.decim.toNat = 0)
    && decide (b.rate % b.blf.toNat = 0)
    && decide (2 ≤ b.samplesPerSymbol) && decide (b.samplesPerSymbol % 2 = 0)
    && decide (b.halfBitLen ≤ Config.maxBurst / 2)

/-- The checks V7 to V10, on the preamble, the sync search and the payload length (R84). -/
def BaseConfig.decoderValid (b : BaseConfig) : Bool :=
  decide (1 ≤ b.preambleLen.toNat) && decide (b.preambleLen.toNat ≤ Config.preambleMax)
    && decide (1 ≤ b.window) && decide (b.window ≤ Config.maxBurst)
    && decide (b.syncThr.toNat ≤ 256)
    && decide (b.epcBits.toNat % 16 = 0) && decide (16 ≤ b.epcBits.toNat)
    && decide (b.epcBits.toNat ≤ Config.maxPayload)

/-- The checks V11 to V13, on the thresholds and the lengths (R84). -/
def BaseConfig.gateValid (b : BaseConfig) : Bool :=
  decide (b.exitScale.toNat ≤ b.enterScale.toNat) && decide (b.exitBias.toNat < b.enterBias.toNat)
    && decide (1 ≤ b.dwell.toNat) && decide (b.dwell.toNat ≤ Config.maxBurst)
    && decide (1 ≤ b.minLen.toNat) && decide (b.minLen.toNat ≤ b.maxLen.toNat)
    && decide (b.maxLen.toNat ≤ Config.maxBurst)

/-- `valid(b)`, the conjunction of V1 to V13 (R84). -/
def BaseConfig.valid (b : BaseConfig) : Bool := b.ratesValid && b.decoderValid && b.gateValid

/-- The derived registers that a passing RECOMPUTE computes (R85; 10_state.md R35). -/
def BaseConfig.derive (b : BaseConfig) : Derived where
  sampleRate := BitVec.ofNat 32 b.rate
  sps := BitVec.ofNat 32 b.samplesPerSymbol
  halfBit := BitVec.ofNat 32 b.halfBitLen
  syncWindow := BitVec.ofNat 32 b.window

/-- The part of RECOMPUTE that runs while halted: latch the base configuration if it passes the check, else raise
ConfigurationInvalid (R85; 60_exceptions.md R153). -/
def State.latchConfig (s : State) : State :=
  if s.base.valid then { s with active := s.base, derived := s.base.derive, configOk := true }
  else s.raise .configurationInvalid

end Sys2Proof.Machine
end

