-- ==== Sys2Proof/Machine/Commands.lean ====
section
/-! DEFINITION. The commands (40_host_commands.md R85 to R94) and the reserved CMD words (30_encoding.md R69). -/

namespace Sys2Proof.Machine

/-- NOP (R94). -/
def execNop (s : State) : Host.Outcome State Fault Refusal := .next s

/-- RECOMPUTE: refused while running, else check and latch the base configuration (R85). -/
def execRecompute (s : State) : Host.Outcome State Fault Refusal :=
  .next (if s.running then s.raise .commandError else s.latchConfig)

/-- START: refused while running or while CONFIG_OK = 0 (R86). -/
def execStart (s : State) : Host.Outcome State Fault Refusal :=
  .next (if s.running || !s.configOk then s.raise .commandError else { s with running := true })

/-- STOP: discard what is in flight and halt; no error while halted (R87). -/
def execStop (s : State) : Host.Outcome State Fault Refusal := .next (if s.running then s.flush else s)

/-- ARM_RN16 (R88). -/
def execArmRn16 (s : State) : Host.Outcome State Fault Refusal := .next { s with expect := .rn16 }

/-- ARM_EPC (R89). -/
def execArmEpc (s : State) : Host.Outcome State Fault Refusal := .next { s with expect := .epc }

/-- DISARM (R90). -/
def execDisarm (s : State) : Host.Outcome State Fault Refusal := .next { s with expect := .none }

/-- POP: remove the head record; refused while the FIFO is empty (R91). -/
def execPop (s : State) : Host.Outcome State Fault Refusal :=
  match s.oq with
  | [] => .next (s.raise .commandError)
  | _ :: rest => .next { s with oq := rest }

/-- CLEAR_COUNTERS (R92). -/
def execClearCounters (s : State) : Host.Outcome State Fault Refusal := .next { s with counters := Counters.zero }

/-- SOFT_RESET (R93). -/
def execSoftReset (s : State) : Host.Outcome State Fault Refusal := .next s.softReset

/-- A reserved CMD word raises CommandError and changes nothing else (30_encoding.md R69; 60_exceptions.md R154). -/
def execCmdReserved (_w : Word) (s : State) : Host.Outcome State Fault Refusal := .next (s.raise .commandError)

/-- The rule of a command (40_host_commands.md R83). -/
def execCommand (op : CmdOp) (s : State) : Host.Outcome State Fault Refusal :=
  match op with
  | .nop => execNop s
  | .recompute => execRecompute s
  | .start => execStart s
  | .stop => execStop s
  | .armRn16 => execArmRn16 s
  | .armEpc => execArmEpc s
  | .disarm => execDisarm s
  | .pop => execPop s
  | .clearCounters => execClearCounters s
  | .softReset => execSoftReset s

end Sys2Proof.Machine
end

