-- ==== Sys2Proof/Machine/Flags.lean ====
section
/-! DEFINITION. STATUS, IRQ_EN and CTRL as the host reads them, and the interrupt line (10_state.md R20, R22, R23;
60_exceptions.md R157). -/

namespace Sys2Proof.Machine

/-- STATUS.FRAME_AVAIL: the output FIFO is not empty (R20). -/
def frameAvail (s : State) : Bool := !s.oq.isEmpty

/-- STATUS.GATE_ACCUM: the gate is in ACCUMULATING (R20). -/
def gateAccum (s : State) : Bool := s.gate.gst == .accumulating

/-- STATUS as a read gives it, its fields from bit 31 down to bit 0 (R20). -/
def statusWord (s : State) : Word :=
  (0#14 ++ s.expect.code ++ 0#1 ++ BitVec.ofBool (!s.dq.isEmpty) ++ BitVec.ofNat 3 s.bq.length
    ++ BitVec.ofNat 3 s.oq.length ++ BitVec.ofBool (gateAccum s) ++ BitVec.ofBool (burstQFull s)
    ++ BitVec.ofBool (outQFull s) ++ BitVec.ofBool (frameAvail s) ++ BitVec.ofBool s.cmdErr
    ++ BitVec.ofBool s.configErr ++ BitVec.ofBool s.configOk ++ BitVec.ofBool s.running : BitVec 32)

/-- IRQ_EN as a read gives it: bits 4:2, the others 0 (R22). -/
def IrqEnable.word (e : IrqEnable) : Word :=
  (0#27 ++ BitVec.ofBool e.frameEn ++ BitVec.ofBool e.cmdErrEn ++ BitVec.ofBool e.cfgErrEn ++ 0#2 : BitVec 32)

/-- IRQ_EN[4:2] <- v[4:2] (40_host_commands.md R80). -/
def IrqEnable.ofWord (v : Word) : IrqEnable where
  cfgErrEn := v.getLsbD 2
  cmdErrEn := v.getLsbD 3
  frameEn := v.getLsbD 4

/-- The interrupt line, a function of state at every moment (60_exceptions.md R157). -/
def irq (s : State) : Bool :=
  (s.irqEn.cfgErrEn && s.configErr) || (s.irqEn.cmdErrEn && s.cmdErr) || (s.irqEn.frameEn && frameAvail s)

end Sys2Proof.Machine
end

