-- ==== Sys2Proof/Machine/Gate.lean ====
section
/-! DEFINITION. The burst gate (41_gate.md). -/

namespace Sys2Proof.Machine

/-- enter_thr(nf), exact (R96). -/
def enterThr (s : State) : Nat := s.nf.toNat * s.active.enterScale.toNat / 256 + s.active.enterBias.toNat

/-- exit_thr(nf), exact (R96). -/
def exitThr (s : State) : Nat := s.nf.toNat * s.active.exitScale.toNat / 256 + s.active.exitBias.toNat

/-- The sample triggers: m > enter_thr(nf) (R98). -/
def triggers (s : State) (w : Word) : Bool := decide (enterThr s < mag w)

/-- The sample is quiet: m ≤ exit_thr(nf) (R98). -/
def quiet (s : State) (w : Word) : Bool := decide (mag w ≤ exitThr s)

/-- nf + floor((m − nf) / 2^k), the difference signed and the division rounding toward minus infinity (R99). Lean's `/`
on `Int` rounds so when the divisor is positive. The result lies between nf and m, so it fits (R100). -/
def nfUpdate (k m : Nat) (nf : Word) : Word :=
  BitVec.ofInt 32 ((nf.toNat : Int) + ((m : Int) - (nf.toNat : Int)) / (2 ^ k : Int))

/-- Keep or discard the accumulated burst that ends at `endIndex` (R106). -/
def State.closeBurst (endIndex : Index) (forced : Bool) (s : State) : State :=
  let len := (endIndex - s.gate.gStart).toNat
  if len < s.active.minLen.toNat then s.raise .burstTooShort
  else
    let burst : Burst :=
      { startIndex := s.gate.gStart, endIndex := endIndex, samples := s.gate.gBuf.take len, hint := s.gate.gHint,
        forced := forced }
    let kept := { s with bq := s.bq ++ [burst] }.count .bursts
    if forced then kept.count .forced else kept

/-- `finalize(end, forced)`: close the burst and go back to SEARCHING (R106). -/
def State.finalize (endIndex : Index) (forced : Bool) (s : State) : State :=
  { s.closeBurst endIndex forced with gate := Gate.idle }

/-- The SAMPLE step's enabling condition (R101). -/
def sampleEnabled (s : State) : Bool := s.running && !burstQFull s

/-- A triggering sample opens a burst and latches the expectation (R101, R102). -/
def State.openBurst (i : Index) (w : Word) (s : State) : State :=
  let s' :=
    { s with gate := { gst := .accumulating, gStart := i, gBuf := [w], gQuiet := 0, gHint := s.expect } }
  if s.active.maxLen.toNat = 1 then s'.finalize (i + 1) true else s'

/-- A sample in ACCUMULATING: dwell finalization is tested before forced finalization (R101, R103 to R105). Where MAX_LEN
is reached inside the dwell R104 forces the burst, and R108's length does not hold (DEDUCED, log entry 13). -/
def State.extendBurst (i : Index) (w : Word) (s : State) : State :=
  let buf := s.gate.gBuf ++ [w]
  let q := if quiet s w then s.gate.gQuiet + 1 else 0
  let s' := { s with gate := { s.gate with gBuf := buf, gQuiet := q } }
  if q = s.active.dwell.toNat then s'.finalize (i + 1 - s.active.dwell.setWidth 64) false
  else if buf.length = s.active.maxLen.toNat then s'.finalize (i + 1) true
  else s'

/-- What an enabled SAMPLE step does with the word it takes (R101). -/
def State.takeSample (w : Word) (s : State) : State :=
  let i := s.sampleIndex
  let s' := { s with sampleIndex := i + 1 }
  match s.gate.gst with
  | .searching =>
    if triggers s w then s'.openBurst i w else { s' with nf := nfUpdate s.active.nfShift.toNat (mag w) s.nf }
  | .accumulating => s'.extendBurst i w

/-- SAMPLE (R101). Where it is not enabled the gate takes no step (00_scope.md R8). -/
def execSample (w : Word) (s : State) : Host.Outcome State Fault Refusal :=
  .next (if sampleEnabled s then s.takeSample w else s)

end Sys2Proof.Machine
end

