-- ==== Sys2Proof/Machine/Window.lean ====
section
/-! DEFINITION. Reading and writing the register window (40_host_commands.md R79, R80), with the output record as the
host reads it (30_encoding.md R72 to R74). -/

namespace Sys2Proof.Machine

/-- OUT_HDR of a record, its fields from bit 31 down to bit 0 (R72). -/
def Record.hdrWord (r : Record) : Word :=
  (0#6 ++ r.payloadLen ++ 0#4 ++ r.hint.code ++ 0#1 ++ BitVec.ofBool r.polarity ++ BitVec.ofBool r.collision
    ++ BitVec.ofBool r.crcValid ++ r.kind.code ++ r.status.code ++ BitVec.ofBool r.valid : BitVec 32)

/-- OUT_CRC: CRC_CALC in bits 31:16 and CRC_RX in bits 15:0 (R73). -/
def Record.crcWord (r : Record) : Word := (r.crcCalc ++ r.crcRx : BitVec 32)

/-- OUT_COLL: LOWCONF_COUNT in bits 31:16 and VIOL_COUNT in bits 15:0 (R73). -/
def Record.collWord (r : Record) : Word := (r.lowconfCount ++ r.violCount : BitVec 32)

/-- OUT_DATA i: payload bits b_(32 i) to b_(32 i + 31), the first in bit 31 (R74). -/
def Record.dataWord (r : Record) (i : Fin 16) : Word := r.payload.extractLsb' (480 - 32 * i.val) 32

/-- Bits 31:0 of a 64-bit value, its _LO register (20_memory.md R53). -/
def lo64 (x : Index) : Word := x.extractLsb' 0 32

/-- Bits 63:32 of a 64-bit value, its _HI register (R53). -/
def hi64 (x : Index) : Word := x.extractLsb' 32 32

/-- What a word of the output window shows: the head record's, or 0 while the FIFO is empty (10_state.md R41). -/
def outView (s : State) (f : Record → Word) : Word :=
  match s.oq with
  | [] => 0
  | r :: _ => f r

/-- A threshold as a read gives it: min(thr, 0xFFFFFFFF) (R37). -/
def thrWord (thr : Nat) : Word := BitVec.ofNat 32 (min thr 0xFFFFFFFF)

/-- The start of the burst being accumulated, 0 in SEARCHING (R39). -/
def burstStart (s : State) : Index :=
  match s.gate.gst with
  | .searching => 0
  | .accumulating => s.gate.gStart

/-- What a read of a register gives (40_host_commands.md R79). -/
def readReg (r : Reg) (s : State) : Word :=
  match r with
  | .id => 0x47325258
  | .version => 0x00010000
  | .status => statusWord s
  | .cmd => 0
  | .irqEn => s.irqEn.word
  | .ctrl => (BitVec.ofBool s.diagEn).setWidth 32
  | .base b => s.base.get b
  | .sampleRate => s.derived.sampleRate
  | .sps => s.derived.sps
  | .halfBit => s.derived.halfBit
  | .syncWindow => s.derived.syncWindow
  | .noiseFloor => s.nf
  | .enterThr => thrWord (enterThr s)
  | .exitThr => thrWord (exitThr s)
  | .sampleIndexLo => lo64 s.sampleIndex
  | .sampleIndexHi => hi64 s.sampleIndex
  | .burstStartLo => lo64 (burstStart s)
  | .burstStartHi => hi64 (burstStart s)
  | .cnt c => s.counters.get c
  | .outHdr => outView s Record.hdrWord
  | .outStartLo => outView s (fun x => lo64 x.startIndex)
  | .outStartHi => outView s (fun x => hi64 x.startIndex)
  | .outEndLo => outView s (fun x => lo64 x.endIndex)
  | .outEndHi => outView s (fun x => hi64 x.endIndex)
  | .outCrc => outView s Record.crcWord
  | .outColl => outView s Record.collWord
  | .outSyncOffset => outView s Record.syncOffset
  | .outSyncQ => outView s (fun x => x.syncQ.setWidth 32)
  | .outData i => outView s (fun x => x.dataWord i)

/-- What a read at an offset gives: 0 at a reserved offset (20_memory.md R51). -/
def readAt (off : Offset) (s : State) : Word :=
  match Reg.ofOffset off with
  | none => 0
  | some r => readReg r s

/-- A write of a register by REG_WRITE: the RW registers store their field, a RO register ignores it (R80; 20_memory.md
R51). STATUS, CMD and NOISE_FLOOR have rows of their own and are not written here. -/
def writeReg (r : Reg) (v : Word) (s : State) : State :=
  match r with
  | .irqEn => { s with irqEn := IrqEnable.ofWord v }
  | .ctrl => { s with diagEn := v.getLsbD 0 }
  | .base b => { s with base := s.base.set b v }
  | .id | .version | .status | .cmd | .sampleRate | .sps | .halfBit | .syncWindow | .noiseFloor => s
  | .enterThr | .exitThr | .sampleIndexLo | .sampleIndexHi | .burstStartLo | .burstStartHi | .cnt _ => s
  | .outHdr | .outStartLo | .outStartHi | .outEndLo | .outEndHi | .outCrc | .outColl | .outSyncOffset | .outSyncQ => s
  | .outData _ => s

/-- A write at an offset by REG_WRITE: ignored at a reserved offset (20_memory.md R51). -/
def writeAt (off : Offset) (v : Word) (s : State) : State :=
  match Reg.ofOffset off with
  | none => s
  | some r => writeReg r v s

end Sys2Proof.Machine
end

