-- ==== Sys2Proof/Machine/Bus.lean ====
section
/-! DEFINITION. The host's accesses (40_host_commands.md R79 to R83). -/

namespace Sys2Proof.Machine

/-- REG_READ: the value goes to the host and nothing else changes (R79; 20_memory.md R56). An offset that is not
word-aligned is outside the interface (R52). -/
def execRegRead (off : Offset) (s : State) : Host.Outcome State Fault Refusal :=
  if wordAligned off then .next { s with rdata := readAt off s } else .refused (.unaligned off)

/-- STATUS_W1C: v[2] clears CONFIG_ERR and v[3] clears CMD_ERR (R81). -/
def execStatusW1c (v : Word) (s : State) : Host.Outcome State Fault Refusal :=
  .next { s with configErr := s.configErr && !v.getLsbD 2, cmdErr := s.cmdErr && !v.getLsbD 3 }

/-- CMD_WRITE: run the rule of the command v names, or set CMD_ERR (R83). -/
def execCmdWrite (v : Word) (s : State) : Host.Outcome State Fault Refusal :=
  match decodeOp v with
  | some op => execCommand op s
  | none => execCmdReserved v s

/-- NOISE_FLOOR_WRITE: refused while running, else nf <- v (R82). -/
def execNoiseFloorWrite (v : Word) (s : State) : Host.Outcome State Fault Refusal :=
  .next (if s.running then s.raise .commandError else { s with nf := v })

/-- REG_WRITE (R80). The decoder gives it no offset with a row of its own; such a term does what that row says (log
entry 11). An offset that is not word-aligned is outside the interface (20_memory.md R52). -/
def execRegWrite (off : Offset) (v : Word) (s : State) : Host.Outcome State Fault Refusal :=
  if !wordAligned off then .refused (.unaligned off)
  else if off = 0x008#12 then execStatusW1c v s
  else if off = 0x00C#12 then execCmdWrite v s
  else if off = 0x090#12 then execNoiseFloorWrite v s
  else .next (writeAt off v s)

end Sys2Proof.Machine
end

