-- ==== Sys2Proof/Machine/Sync.lean ====
section
/-! DEFINITION. The symbol synchronizer and the bit decisions (42_sync_demod.md). Every function is pure and exact. -/

namespace Sys2Proof.Machine

/-- s[t] = m[t] − mean, with mean the floor of the average (R112). -/
def demodSignal (samples : List Word) : List Int :=
  let m := samples.map mag
  let mean := m.sum / m.length
  m.map (fun x => (x : Int) - (mean : Int))

/-- The chip weight w(i): 1 for FM0, a square subcarrier of period SPS for Miller (R113). -/
def chipWeight (lineCode sps i : Nat) : Int :=
  if lineCode = 0 then 1 else if i % sps < sps / 2 then 1 else -1

/-- What the decoder reads of the active configuration to find chips (R110, R111, R116). -/
structure Timing where
  lineCode : Nat
  sps : Nat
  halfBit : Nat
  window : Nat
  preambleLen : Nat
  preambleChips : Word
  deriving DecidableEq, Repr

/-- The decoder's view of the active configuration. -/
def State.timing (s : State) : Timing where
  lineCode := s.active.lineCode.toNat
  sps := s.derived.sps.toNat
  halfBit := s.derived.halfBit.toNat
  window := s.derived.syncWindow.toNat
  preambleLen := s.active.preambleLen.toNat
  preambleChips := s.active.preambleChips

/-- The weights of one chip's Hb samples. -/
def Timing.weights (t : Timing) : List Int := (List.range t.halfBit).map (chipWeight t.lineCode t.sps)

/-- chip(x), the sum over i < Hb of s[x + i]·w(i), for x + Hb ≤ n (R114). -/
def Timing.chip (t : Timing) (sig : List Int) (x : Nat) : Int := (List.zipWith (· * ·) (sig.drop x) t.weights).sum

/-- sgn(h), with sgn(0) = +1 (R115). -/
def sgn (h : Int) : Int := if 0 ≤ h then 1 else -1

/-- p_j: +1 when PREAMBLE_CHIPS[31 − j] = 1, else −1 (R116; 10_state.md R26). -/
def Timing.preambleChip (t : Timing) (j : Nat) : Int := if t.preambleChips.getMsbD j then 1 else -1

/-- The chip sums c_j(τ) under the preamble (R118). -/
def Timing.preambleSums (t : Timing) (sig : List Int) (tau : Nat) : List Int :=
  (List.range t.preambleLen).map (fun j => t.chip sig (tau + j * t.halfBit))

/-- corr(τ) (R118). -/
def Timing.corr (t : Timing) (sig : List Int) (tau : Nat) : Int :=
  (List.zipWith (· * ·) ((List.range t.preambleLen).map t.preambleChip) (t.preambleSums sig tau)).sum

/-- A(τ) (R118). -/
def Timing.amplitude (t : Timing) (sig : List Int) (tau : Nat) : Nat :=
  ((t.preambleSums sig tau).map Int.natAbs).sum

/-- The candidate phases: every τ with τ < W and τ + Lp·Hb ≤ n (R117). -/
def Timing.candidates (t : Timing) (n : Nat) : List Nat :=
  List.range (min t.window (n + 1 - t.preambleLen * t.halfBit))

/-- A phase with its correlation and amplitude (R119). -/
structure Peak where
  offset : Nat
  corr : Int
  amp : Nat
  deriving DecidableEq, Repr

/-- The correlation at one phase. -/
def Timing.peakAt (t : Timing) (sig : List Int) (tau : Nat) : Peak :=
  { offset := tau, corr := t.corr sig tau, amp := t.amplitude sig tau }

/-- The candidate with the largest |corr|, the smallest τ among equals; none when there is no candidate (R119). -/
def Timing.findPeak (t : Timing) (sig : List Int) : Option Peak :=
  match t.candidates sig.length with
  | [] => none
  | tau :: rest =>
    some (rest.foldl
      (fun best x => let p := t.peakAt sig x; if best.corr.natAbs < p.corr.natAbs then p else best)
      (t.peakAt sig tau))

/-- sync_q: floor(256·|corr*| / A*) if A* > 0, else 0 (R119). -/
def Peak.quality (p : Peak) : Nat := if 0 < p.amp then 256 * p.corr.natAbs / p.amp else 0

/-- polarity: 1 if corr* < 0 (R119). -/
def Peak.negative (p : Peak) : Bool := decide (p.corr < 0)

/-- Sync passes: not (b) A* = 0 and not (c) 256·|corr*| < SYNC_THR·A* (R120). -/
def Peak.passes (p : Peak) (thr : Nat) : Bool := decide (p.amp ≠ 0) && decide (thr * p.amp ≤ 256 * p.corr.natAbs)

/-- d0 = τ* + Lp·Hb (R121). -/
def Timing.dataStart (t : Timing) (p : Peak) : Nat := p.offset + t.preambleLen * t.halfBit

/-- One bit decision: its two half-interval chip sums (R122). -/
structure Decision where
  h1 : Int
  h2 : Int
  deriving DecidableEq, Repr

/-- The chip sums of bit k, at d0 + 2k·Hb and d0 + (2k+1)·Hb, with no tracking (R122, R123). R129's text swaps the two
sums of its bit 1; the model follows R122 (DEDUCED, log entry 17). -/
def Timing.decision (t : Timing) (sig : List Int) (d0 k : Nat) : Decision where
  h1 := t.chip sig (d0 + 2 * k * t.halfBit)
  h2 := t.chip sig (d0 + (2 * k + 1) * t.halfBit)

/-- A mid-bit transition: sgn(h1) ≠ sgn(h2) (R124). -/
def Decision.midTransition (d : Decision) : Bool := decide (sgn d.h1 ≠ sgn d.h2)

/-- The decided bit: FM0's 0 has a mid-bit transition (R125), Miller's 1 has one (R126). -/
def Decision.bit (lineCode : Nat) (d : Decision) : Bool :=
  if lineCode = 0 then !d.midTransition else d.midTransition

/-- conf = min(|h1|, |h2|) (R127). -/
def Decision.conf (d : Decision) : Nat := min d.h1.natAbs d.h2.natAbs

/-- The decisions of the N bits from d0 (R122, R123). -/
def Timing.decisions (t : Timing) (sig : List Int) (d0 n : Nat) : List Decision :=
  (List.range n).map (t.decision sig d0)

end Sys2Proof.Machine
end

