-- ==== Sys2Proof/Machine/Frame.lean ====
section
/-! DEFINITION. The frame parser, the CRC validator, the collision detector and the record of a burst
(43_frame_crc_collision.md R130 to R140). -/

namespace Sys2Proof.Machine

/-- P, the payload bit count of a hint (R130). A burst without a hint is not parsed (R139). -/
def payloadBits (epcBits : BitVec 10) : Expect → BitVec 10
  | .none => 0
  | .rn16 => 16
  | .epc => epcBits

/-- A bit sequence as a number, its first bit the most significant (R132). -/
def bitsToNat (bits : List Bool) : Nat := bits.foldl (fun acc b => 2 * acc + b.toNat) 0

/-- One bit through the CRC register (R133). -/
def crcStep (poly r : BitVec 16) (d : Bool) : BitVec 16 :=
  if r.msb ^^ d then (r <<< 1) ^^^ poly else r <<< 1

/-- The CRC of a bit sequence, first bit first (R133). -/
def crc (poly init xorout : BitVec 16) (bits : List Bool) : BitVec 16 := bits.foldl (crcStep poly) init ^^^ xorout

/-- The payload words side by side: bit b_j at bit 511 − j, 0 beyond the payload (30_encoding.md R74). -/
def packPayload (bits : List Bool) : BitVec 512 :=
  BitVec.ofNat 512 (bitsToNat bits * 2 ^ (Config.maxPayload - bits.length))

/-- A boundary after a bit breaks the line code's rule: FM0 inverts at every boundary, Miller between two data-0 bits
(R137). -/
def boundaryViolated (lineCode : Nat) (a b : Decision) : Bool :=
  let inverted := decide (sgn a.h2 ≠ sgn b.h1)
  let expected := if lineCode = 0 then true else !a.bit lineCode && !b.bit lineCode
  inverted != expected

/-- viol: how many of the boundaries between consecutive bits are violated (R137). -/
def violations (lineCode : Nat) (ds : List Decision) : Nat :=
  (List.zipWith (boundaryViolated lineCode) ds ds.tail).count true

/-- low: how many bits have a confidence below COLL_CONF_THR (R137). -/
def lowConfidence (thr : Nat) (ds : List Decision) : Nat := ds.countP (fun d => decide (d.conf < thr))

/-- A 16-bit count of a record: min(x, 0xFFFF) (R137). -/
def count16 (x : Nat) : BitVec 16 := BitVec.ofNat 16 (min x 0xFFFF)

/-- A record with no frame and nothing of the sync search (R139, R140). -/
def emptyRecord (b : Burst) (st : RecStatus) : Record where
  valid := true
  status := st
  kind := .unknown
  crcValid := false
  collision := false
  polarity := false
  hint := b.hint
  payloadLen := 0
  startIndex := b.startIndex
  endIndex := b.endIndex
  crcCalc := 0
  crcRx := 0
  violCount := 0
  lowconfCount := 0
  syncOffset := 0
  syncQ := 0
  payload := 0

/-- A record with what the sync search reports: sync_offset, sync_q and polarity (R140; 42_sync_demod.md R119). -/
def Record.withPeak (r : Record) (p : Peak) : Record :=
  { r with
    polarity := p.negative
    syncOffset := BitVec.ofNat 32 p.offset
    syncQ := BitVec.ofNat 9 p.quality }

/-- The record of a burst whose N bits were decided (R132 to R134, R137, R138, R140). -/
def frameRecord (c : BaseConfig) (b : Burst) (p : Peak) (ds : List Decision) : Record :=
  let lc := c.lineCode.toNat
  let bits := ds.map (Decision.bit lc)
  let plen := payloadBits c.epcBits b.hint
  let payload := bits.take plen.toNat
  let rx := BitVec.ofNat 16 (bitsToNat ((bits.drop plen.toNat).take 16))
  let own := crc c.crcPoly c.crcInit c.crcXorout payload
  let viol := violations lc ds
  let low := lowConfidence c.collConfThr.toNat ds
  { (emptyRecord b (if own = rx then .frameOk else .crcInvalid)).withPeak p with
    kind := b.hint.kind
    crcValid := decide (own = rx)
    collision := decide (c.collThr.toNat ≤ viol + low)
    payloadLen := plen
    crcCalc := own
    crcRx := rx
    violCount := count16 viol
    lowconfCount := count16 low
    payload := packPayload payload }

/-- The record of a burst, its outcomes tested in the order Unsolicited, SyncFailure, FrameLengthMismatch, then the
CRC (R141; 60_exceptions.md R156). -/
def recordOf (c : BaseConfig) (t : Timing) (b : Burst) : Record :=
  match b.hint with
  | .none => emptyRecord b .unsolicited
  | _ =>
    let sig := demodSignal b.samples
    match t.findPeak sig with
    | none => emptyRecord b .syncFailure
    | some p =>
      if !p.passes c.syncThr.toNat then (emptyRecord b .syncFailure).withPeak p
      else
        let n := (payloadBits c.epcBits b.hint).toNat + 16
        if b.samples.length < t.dataStart p + 2 * n * t.halfBit then (emptyRecord b .lengthMismatch).withPeak p
        else frameRecord c b p (t.decisions sig (t.dataStart p) n)

end Sys2Proof.Machine
end

