-- ==== Sys2Proof/Machine/Decoder.lean ====
section
/-! DEFINITION. The decoder's step DECODE and the diagnostic sink's step DIAG_DRAIN (43_frame_crc_collision.md R141 to
R145). -/

namespace Sys2Proof.Machine

/-- The diagnostic entries of a burst: its words in order, the last one marked (R144). -/
def diagEntries : List Word → List DiagEntry
  | [] => []
  | [w] => [{ word := w, last := true }]
  | w :: ws => { word := w, last := false } :: diagEntries ws

/-- `diag_copy(B)` when CTRL.DIAG_EN = 1 (R144). -/
def State.diagCopy (b : Burst) (s : State) : State :=
  if s.diagEn then { s with dq := s.dq ++ diagEntries b.samples } else s

/-- The event of a record's status; a frame whose CRC matched raises none (60_exceptions.md R147). -/
def RecStatus.event : RecStatus → Option Event
  | .frameOk => none
  | .crcInvalid => some .crcInvalid
  | .syncFailure => some .syncFailure
  | .lengthMismatch => some .frameLengthMismatch
  | .unsolicited => some .unsolicited

/-- `count(rec)`: exactly one counter for the record's status, and CNT_COLLISION when it is flagged (R142). -/
def State.countRecord (r : Record) (s : State) : State :=
  let s' := match r.status.event with
    | none => s.count .crcOk
    | some e => s.raise e
  if r.collision then s'.count .collision else s'

/-- The diagnostic queue has room for the burst, or no copy is asked for (R141). -/
def diagRoom (b : Burst) (s : State) : Bool :=
  !s.diagEn || decide (s.dq.length + b.samples.length ≤ Config.diagQDepth)

/-- The DECODE step's enabling condition (R141). -/
def decodeEnabled (s : State) : Bool :=
  match s.bq with
  | [] => false
  | b :: _ => s.running && decide (s.oq.length < Config.outQDepth) && diagRoom b s

/-- What the DECODE step does with the head burst (R141). -/
def State.decodeBurst (b : Burst) (rest : List Burst) (s : State) : State :=
  let made := recordOf s.active s.timing b
  let s' := { s with bq := rest }.diagCopy b
  { s' with oq := s'.oq ++ [made] }.countRecord made

/-- DECODE (R141). Where it is not enabled the decoder waits (00_scope.md R8). -/
def execDecode (s : State) : Host.Outcome State Fault Refusal :=
  match s.bq with
  | [] => .next s
  | b :: rest => .next (if decodeEnabled s then s.decodeBurst b rest else s)

/-- DIAG_DRAIN: the sink takes the head entry, whether G2RX runs or not; with no entry it takes no step (R145). -/
def execDiagDrain (s : State) : Host.Outcome State Fault Refusal :=
  match s.dq with
  | [] => .next s
  | e :: rest => .next { s with dq := rest, delivered := s.delivered ++ [e] }

end Sys2Proof.Machine
end

