-- ==== Sys2Proof/Machine/Dispatch.lean ====
section
/-! DEFINITION. One arm for each constructor of `Instr`. -/

namespace Sys2Proof.Machine

def exec (i : Instr) (s : State) : Host.Outcome State Fault Refusal :=
  match i with
  | .nop => Sys2Proof.Machine.execNop s
  | .recompute => Sys2Proof.Machine.execRecompute s
  | .start => Sys2Proof.Machine.execStart s
  | .stop => Sys2Proof.Machine.execStop s
  | .armRn16 => Sys2Proof.Machine.execArmRn16 s
  | .armEpc => Sys2Proof.Machine.execArmEpc s
  | .disarm => Sys2Proof.Machine.execDisarm s
  | .pop => Sys2Proof.Machine.execPop s
  | .clearCounters => Sys2Proof.Machine.execClearCounters s
  | .softReset => Sys2Proof.Machine.execSoftReset s
  | .cmdReserved w => Sys2Proof.Machine.execCmdReserved w s
  | .regRead off => Sys2Proof.Machine.execRegRead off s
  | .regWrite off v => Sys2Proof.Machine.execRegWrite off v s
  | .statusW1c v => Sys2Proof.Machine.execStatusW1c v s
  | .cmdWrite v => Sys2Proof.Machine.execCmdWrite v s
  | .noiseFloorWrite v => Sys2Proof.Machine.execNoiseFloorWrite v s
  | .sample w => Sys2Proof.Machine.execSample w s
  | .decode => Sys2Proof.Machine.execDecode s
  | .diagDrain => Sys2Proof.Machine.execDiagDrain s

end Sys2Proof.Machine
end

