-- ==== Sys2Proof/Machine/Fetch.lean ====
section
/-! DEFINITION. What the next step runs: the agent whose turn it is, the unit it presents and the operation the unit
stands for (00_scope.md R7, R8; 30_encoding.md R65; log entries 1 to 3, 9). -/

namespace Sys2Proof.Machine

/-- What the next turn comes to. -/
inductive Fetched where
  /-- No operation is run: there is no turn, the agent has no input, or the platform resets G2RX. -/
  | settled (s : State)
  /-- The operation to run, in the state it runs in. -/
  | run (i : Instr) (s : State)
  /-- The access has no meaning (20_memory.md R52). -/
  | refuse (r : Refusal)
  deriving DecidableEq, Repr

/-- The unit an agent presents at its turn; none when the source has no word, or for the platform's reset. -/
def presented (t : Turn) (s : State) : Option Xfer :=
  match t with
  | .host a => some (.bus a)
  | .command w => some (.cmd w)
  | .source => s.input.head?.map .sample
  | .decoder => some .decodeStep
  | .sink => some .diagStep
  | .platformReset => none

/-- The source hands its word over when the gate takes it, and keeps it otherwise (41_gate.md R101). -/
def State.handOver (t : Turn) (s : State) : State :=
  match t with
  | .source => if sampleEnabled s then { s with input := s.input.tail } else s
  | .host _ | .command _ | .decoder | .sink | .platformReset => s

/-- The refusal of an access outside the interface. -/
def Refusal.ofReject : Reject → Refusal
  | .accessSize n => .accessSize n
  | .unaligned off => .unaligned off

/-- Take the turn at the head of the schedule. -/
def fetchTurn (t : Turn) (s : State) : Fetched :=
  match t with
  | .platformReset => .settled s.hardReset
  | .host _ | .command _ | .source | .decoder | .sink =>
    match presented t s with
    | none => .settled s
    | some u =>
      match decode u with
      | .ok i => .run i (s.handOver t)
      | .error e => .refuse (Refusal.ofReject e)

/-- What the next step runs. With no turn waiting, no agent takes a step. -/
def fetchNext (s : State) : Fetched :=
  match s.turns with
  | [] => .settled s
  | t :: rest => fetchTurn t { s with turns := rest }

/-- The turn that presents a unit: a sample word is put at the head of the input stream. -/
def State.present (s : State) (u : Xfer) : State :=
  match u with
  | .bus a => { s with turns := .host a :: s.turns }
  | .cmd w => { s with turns := .command w :: s.turns }
  | .sample w => { s with turns := .source :: s.turns, input := w :: s.input }
  | .decodeStep => { s with turns := .decoder :: s.turns }
  | .diagStep => { s with turns := .sink :: s.turns }

end Sys2Proof.Machine
end

