-- ==== Sys2Proof/Machine/Step.lean ====
section
/-! DEFINITION. One step of the machine: the next turn's operation, run. -/

namespace Sys2Proof.Machine

/-- One atomic step of whichever agent's turn it is (00_scope.md R6, R7). -/
def step (s : State) : Host.Outcome State Fault Refusal :=
  match fetchNext s with
  | .settled s' => .next s'
  | .run i s' => exec i s'
  | .refuse r => .refused r

/-- `s` with the unit that the table's bits stand for presented at its next turn (log entries 1 and 6). Bits that stand
for no unit present nothing. -/
def State.withFetchWord (s : State) (nbits w : Nat) : State :=
  match tableXfer nbits w with
  | none => s
  | some u => s.present u

end Sys2Proof.Machine
end

