-- ==== Sys2Proof/Safety.lean ====
section
/-! DEFINITION. The terms the claims use: the configuration check in the spec's own shape, the invariant of the machine,
a sequence of samples given to the gate, and the signal of a reply in each line code. -/

namespace Sys2Proof.Machine

/-- The checks V1 to V13 over the base register values, as 40_host_commands.md R84 lists them. -/
def ConfigPasses (b : BaseConfig) : Prop :=
  1 ≤ b.decim.toNat
  ∧ 1 ≤ b.blf.toNat
  ∧ (1 ≤ b.adcRate.toNat ∧ b.adcRate.toNat % b.decim.toNat = 0)
  ∧ b.adcRate.toNat / b.decim.toNat % b.blf.toNat = 0
  ∧ (2 ≤ b.adcRate.toNat / b.decim.toNat / b.blf.toNat ∧ b.adcRate.toNat / b.decim.toNat / b.blf.toNat % 2 = 0)
  ∧ 2 ^ b.lineCode.toNat * (b.adcRate.toNat / b.decim.toNat / b.blf.toNat) / 2 ≤ 65536 / 2
  ∧ (1 ≤ b.preambleLen.toNat ∧ b.preambleLen.toNat ≤ 32)
  ∧ b.syncSearch.toNat ≤ 65536
  ∧ b.syncThr.toNat ≤ 256
  ∧ (b.epcBits.toNat % 16 = 0 ∧ 16 ≤ b.epcBits.toNat ∧ b.epcBits.toNat ≤ 512)
  ∧ (b.exitScale.toNat ≤ b.enterScale.toNat ∧ b.exitBias.toNat < b.enterBias.toNat)
  ∧ (1 ≤ b.dwell.toNat ∧ b.dwell.toNat ≤ 65536)
  ∧ (1 ≤ b.minLen.toNat ∧ b.minLen.toNat ≤ b.maxLen.toNat ∧ b.maxLen.toNat ≤ 65536)

/-- A queued burst is as 10_state.md R45 says: as many samples as its indices span modulo 2^64, within MIN_LEN and
MAX_LEN; a forced one holds MAX_LEN samples (41_gate.md R104). -/
structure BurstSound (c : BaseConfig) (b : Burst) : Prop where
  spans : b.samples.length = (b.endIndex - b.startIndex).toNat
  atLeastMin : c.minLen.toNat ≤ b.samples.length
  atMostMax : b.samples.length ≤ c.maxLen.toNat
  forcedIsMax : b.forced = true → b.samples.length = c.maxLen.toNat

/-- The record holds a frame: STATUS 0 or 1 (30_encoding.md R76). -/
def Record.hasFrame (r : Record) : Bool := r.status == .frameOk || r.status == .crcInvalid

/-- A stored record is as 30_encoding.md R72 to R76 and 43_frame_crc_collision.md R140 say. -/
structure RecordSound (r : Record) : Prop where
  valid : r.valid = true
  kindOfFrame : r.hasFrame = true → (r.hint = .rn16 ∧ r.kind = .rn16) ∨ (r.hint = .epc ∧ r.kind = .epc)
  crcValidIffOk : r.crcValid = true ↔ r.status = .frameOk
  crcValidIffEqual : r.hasFrame = true → (r.crcValid = true ↔ r.crcCalc = r.crcRx)
  noFrameNoFields : r.hasFrame = false →
    r.kind = .unknown ∧ r.collision = false ∧ r.payloadLen = 0 ∧ r.crcCalc = 0 ∧ r.crcRx = 0 ∧ r.violCount = 0
      ∧ r.lowconfCount = 0 ∧ r.payload = 0
  unsolicitedIffNoHint : r.status = .unsolicited ↔ r.hint = .none
  unsolicitedNoSync : r.status = .unsolicited → r.polarity = false ∧ r.syncOffset = 0 ∧ r.syncQ = 0
  qualityBound : r.syncQ.toNat ≤ 256
  payloadEnds : r.payload.toNat % 2 ^ (512 - r.payloadLen.toNat) = 0

/-- The gate while it accumulates (10_state.md R43): at least the triggering sample and fewer than MAX_LEN, fewer than
DWELL quiet samples at its tail, and one sample for each index since `gStart`. -/
structure Accumulating (s : State) : Prop where
  nonempty : 0 < s.gate.gBuf.length
  belowMax : s.gate.gBuf.length < s.active.maxLen.toNat
  quietBelowDwell : s.gate.gQuiet < s.active.dwell.toNat
  quietIsTail : s.gate.gQuiet < s.gate.gBuf.length
  contiguous : (s.sampleIndex - s.gate.gStart).toNat = s.gate.gBuf.length

/-- What every step keeps. -/
structure Inv (s : State) : Prop where
  /-- Halted implies SEARCHING, nothing accumulated and an empty burst queue (70_reset_and_hazards.md R169). -/
  haltedIsIdle : s.running = false → s.gate = Gate.idle ∧ s.bq = []
  /-- In SEARCHING nothing is accumulated (10_state.md R43). -/
  searchingIsIdle : s.gate.gst = .searching → s.gate = Gate.idle
  /-- In ACCUMULATING the gate's parts are in their ranges (R43). -/
  accumulating : s.gate.gst = .accumulating → Accumulating s
  /-- The block runs only with CONFIG_OK (40_host_commands.md R86). -/
  runningIsConfigured : s.running = true → s.configOk = true
  /-- CONFIG_OK means the active copy passed the check and the derived registers are its own (R85; R34, R35). -/
  configuredIsValid : s.configOk = true → s.active.valid = true ∧ s.derived = s.active.derive
  /-- The queues stay within their depths (00_scope.md R15). -/
  burstQBound : s.bq.length ≤ Config.burstQDepth
  outQBound : s.oq.length ≤ Config.outQDepth
  diagQBound : s.dq.length ≤ Config.diagQDepth
  /-- Every queued burst is sound (R45). -/
  burstsSound : ∀ b ∈ s.bq, BurstSound s.active b
  /-- Every stored record is sound (R46). -/
  recordsSound : ∀ r ∈ s.oq, RecordSound r

/-- Give the gate the words of a list, one SAMPLE after another, stopping where one is not answered by a next state. -/
def feed : List Word → State → Option State
  | [], s => some s
  | w :: ws, s =>
    match exec (.sample w) s with
    | .next s' => feed ws s'
    | .fault _ => none
    | .refused _ => none

/-- One chip of a noise-free reply: Hb samples of height a times the chip's level times the chip weights
(42_sync_demod.md R113, R114). -/
def chipSignal (t : Timing) (a level : Int) : List Int := t.weights.map (fun w => a * level * w)

/-- The levels of the chips of a bit sequence in FM0: the level inverts at every bit boundary, and in the middle of a
data-0 (42_sync_demod.md R125). `level` is the level before the first bit. -/
def fm0Levels : Int → List Bool → List Int
  | _, [] => []
  | level, true :: bits => -level :: -level :: fm0Levels (-level) bits
  | level, false :: bits => -level :: level :: fm0Levels level bits

/-- The levels of the chips of a bit sequence in Miller: the level inverts in the middle of a data-1, and at the
boundary between two data-0 bits (42_sync_demod.md R126). `level` and `prev` are the level and the bit before. -/
def millerLevels : Int → Bool → List Bool → List Int
  | _, _, [] => []
  | level, _, true :: bits => level :: -level :: millerLevels (-level) true bits
  | level, true, false :: bits => level :: level :: millerLevels level false bits
  | level, false, false :: bits => -level :: -level :: millerLevels (-level) false bits

/-- The chip levels of a bit sequence in the line code selected by LINE_CODE (42_sync_demod.md R111). -/
def lineLevels (lineCode : Nat) (level : Int) (prev : Bool) (bits : List Bool) : List Int :=
  if lineCode = 0 then fm0Levels level bits else millerLevels level prev bits

/-- The signal of a sequence of chip levels. -/
def levelsSignal (t : Timing) (a : Int) (levels : List Int) : List Int := (levels.map (chipSignal t a)).flatten

/-- A counter after one more event: it stays at 0xFFFFFFFF (10_state.md R40). -/
def saturated (c : Word) : Word := if c = 0xFFFFFFFF#32 then c else c + 1

/-- The gate's quiet count after a sample (41_gate.md R101). -/
def quietCount (s : State) (w : Word) : Nat :=
  if mag w ≤ s.nf.toNat * s.active.exitScale.toNat / 256 + s.active.exitBias.toNat then s.gate.gQuiet + 1 else 0

/-- The sample is above the enter threshold (41_gate.md R96, R98). -/
def AboveEnter (s : State) (w : Word) : Prop :=
  s.nf.toNat * s.active.enterScale.toNat / 256 + s.active.enterBias.toNat < mag w

/-- The sample is at or below the exit threshold (R96, R98). -/
def AtOrBelowExit (s : State) (w : Word) : Prop :=
  mag w ≤ s.nf.toNat * s.active.exitScale.toNat / 256 + s.active.exitBias.toNat

/-- A configuration register's offset and width, in the order of 30_encoding.md R66. -/
def configFields : List (Offset × Nat) :=
  [(0x020, 32), (0x024, 16), (0x028, 32), (0x02C, 2), (0x030, 32), (0x034, 6), (0x038, 32), (0x03C, 9), (0x040, 10),
    (0x044, 16), (0x048, 16), (0x04C, 16), (0x050, 16), (0x054, 16), (0x058, 32), (0x05C, 32), (0x060, 32),
    (0x064, 32), (0x068, 32), (0x06C, 4), (0x070, 32), (0x074, 16)]

/-- The reserved offsets that 20_memory.md R50 lists. (The model also reserves 0x09C: log entry 14.) -/
def ReservedOffset (off : Offset) : Prop :=
  (0x018 ≤ off.toNat ∧ off.toNat ≤ 0x01C) ∨ (0x078 ≤ off.toNat ∧ off.toNat ≤ 0x07C)
    ∨ (0x0D4 ≤ off.toNat ∧ off.toNat ≤ 0x0FC) ∨ (0x124 ≤ off.toNat ∧ off.toNat ≤ 0x13C) ∨ 0x180 ≤ off.toNat

/-- The offsets of the read-only registers (30_encoding.md R66). -/
def readOnlyOffsets : List Offset :=
  [0x000, 0x004, 0x080, 0x084, 0x088, 0x08C, 0x094, 0x098, 0x0A0, 0x0A4, 0x0A8, 0x0AC]
  ++ [0x0B0, 0x0B4, 0x0B8, 0x0BC, 0x0C0, 0x0C4, 0x0C8, 0x0CC, 0x0D0]
  ++ [0x100, 0x104, 0x108, 0x10C, 0x110, 0x114, 0x118, 0x11C, 0x120]
  ++ [0x140, 0x144, 0x148, 0x14C, 0x150, 0x154, 0x158, 0x15C, 0x160, 0x164, 0x168, 0x16C, 0x170, 0x174, 0x178, 0x17C]

/-- What a read gives at the offset of each base configuration register (30_encoding.md R66; 10_state.md R24 to R33). -/
def configReads (b : BaseConfig) : List (Offset × Word) :=
  [(0x020, b.adcRate), (0x024, b.decim.setWidth 32), (0x028, b.blf), (0x02C, b.lineCode.setWidth 32),
    (0x030, b.preambleChips), (0x034, b.preambleLen.setWidth 32), (0x038, b.syncSearch),
    (0x03C, b.syncThr.setWidth 32), (0x040, b.epcBits.setWidth 32), (0x044, b.crcPoly.setWidth 32),
    (0x048, b.crcInit.setWidth 32), (0x04C, b.crcXorout.setWidth 32), (0x050, b.enterScale.setWidth 32),
    (0x054, b.exitScale.setWidth 32), (0x058, b.enterBias), (0x05C, b.exitBias), (0x060, b.dwell), (0x064, b.minLen),
    (0x068, b.maxLen), (0x06C, b.nfShift.setWidth 32), (0x070, b.collConfThr), (0x074, b.collThr.setWidth 32)]

/-- What a read gives at the other offsets whose register is stored as it reads, or is a constant (R66; 10_state.md R19,
R21, R35, R36, R38, R40). -/
def liveReads (s : State) : List (Offset × Word) :=
  [(0x000, 0x47325258), (0x004, 0x00010000), (0x00C, 0), (0x080, s.derived.sampleRate), (0x084, s.derived.sps),
    (0x088, s.derived.halfBit), (0x08C, s.derived.syncWindow), (0x090, s.nf), (0x0A0, s.sampleIndex.setWidth 32),
    (0x0A4, (s.sampleIndex >>> 32).setWidth 32), (0x0B0, s.counters.bursts), (0x0B4, s.counters.tooShort),
    (0x0B8, s.counters.forced), (0x0BC, s.counters.syncFail), (0x0C0, s.counters.lenMismatch),
    (0x0C4, s.counters.crcOk), (0x0C8, s.counters.crcBad), (0x0CC, s.counters.unsolicited),
    (0x0D0, s.counters.collision)]

/-- What makes an operation raise CommandError: the five causes of 60_exceptions.md R154, a command also when it comes
as the data word of a CMD write. -/
def CommandErrorCause (i : Instr) (s : State) : Prop :=
  match i with
  | .cmdReserved _ => True
  | .start => s.running = true ∨ s.configOk = false
  | .recompute => s.running = true
  | .pop => s.oq = []
  | .noiseFloorWrite _ => s.running = true
  | .cmdWrite v =>
    v ∉ definedCmdWords ∨ (v = 2 ∧ (s.running = true ∨ s.configOk = false)) ∨ (v = 1 ∧ s.running = true)
      ∨ (v = 7 ∧ s.oq = [])
  | .nop | .stop | .armRn16 | .armEpc | .disarm | .clearCounters | .softReset | .regRead _ | .regWrite _ _ => False
  | .statusW1c _ | .sample _ | .decode | .diagDrain => False

/-- Two states agree on all that the gate depends on (41_gate.md R109), on what it has made of it, and on how far its
queue is filled; the hints may differ. -/
structure SameForGate (s u : State) : Prop where
  running : s.running = u.running
  nf : s.nf = u.nf
  sampleIndex : s.sampleIndex = u.sampleIndex
  gst : s.gate.gst = u.gate.gst
  gStart : s.gate.gStart = u.gate.gStart
  gBuf : s.gate.gBuf = u.gate.gBuf
  gQuiet : s.gate.gQuiet = u.gate.gQuiet
  scales : s.active.enterScale = u.active.enterScale ∧ s.active.exitScale = u.active.exitScale
  biases : s.active.enterBias = u.active.enterBias ∧ s.active.exitBias = u.active.exitBias
  dwell : s.active.dwell = u.active.dwell
  lengths : s.active.minLen = u.active.minLen ∧ s.active.maxLen = u.active.maxLen
  nfShift : s.active.nfShift = u.active.nfShift
  bursts : s.bq.map (fun b => (b.startIndex, b.endIndex, b.samples, b.forced))
    = u.bq.map (fun b => (b.startIndex, b.endIndex, b.samples, b.forced))
  gateCounters : s.counters.bursts = u.counters.bursts ∧ s.counters.tooShort = u.counters.tooShort
    ∧ s.counters.forced = u.counters.forced

end Sys2Proof.Machine
end

