-- ==== Sys2Proof/Certificates/Slice0/Obligations.lean ====
section
/-! DEFINITION. The statements about G2RX. Each docstring names the rules of spec/ it formalises. -/

open Sys2Proof Sys2Proof.Machine

/-! Commands (40_host_commands.md) -/

/-- R94: NOP changes nothing, and only the CMD word 0x00000000 is NOP. -/
def Obligations.NopChangesNothing : Prop :=
  (∀ s : State, exec .nop s = .next s) ∧ ∀ w : Word, decodeCmd w = .nop ↔ w = 0x00000000

/-- R85: RECOMPUTE is refused while running; while halted it latches a base configuration that passes V1 to V13, with
its derived values, and reports one that does not. -/
def Obligations.RecomputeChecksAndLatches : Prop :=
  ∀ s : State,
    (s.running = true → exec .recompute s = .next { s with cmdErr := true })
    ∧ (s.running = false → ConfigPasses s.base →
        ∃ d : Derived,
          exec .recompute s = .next { s with active := s.base, derived := d, configOk := true }
          ∧ d.sampleRate.toNat = s.base.adcRate.toNat / s.base.decim.toNat
          ∧ d.sps.toNat = s.base.adcRate.toNat / s.base.decim.toNat / s.base.blf.toNat
          ∧ d.halfBit.toNat = 2 ^ s.base.lineCode.toNat * d.sps.toNat / 2
          ∧ d.syncWindow.toNat
              = if s.base.syncSearch.toNat ≠ 0 then s.base.syncSearch.toNat else 2 * d.halfBit.toNat)
    ∧ (s.running = false → ¬ ConfigPasses s.base →
        exec .recompute s = .next { s with configOk := false, configErr := true })

/-- R86: START is refused while running or while CONFIG_OK = 0, and otherwise sets RUNNING and nothing else. -/
def Obligations.StartRunsOrIsRefused : Prop :=
  ∀ s : State,
    (s.running = false → s.configOk = true → exec .start s = .next { s with running := true })
    ∧ (s.running = true ∨ s.configOk = false → exec .start s = .next { s with cmdErr := true })

/-- R87: STOP discards the gate's partial burst and the burst queue and halts; while halted it does nothing. -/
def Obligations.StopFlushesInFlightWork : Prop :=
  ∀ s : State,
    (s.running = true →
      exec .stop s = .next
        { s with
          running := false
          gate := { gst := .searching, gStart := 0, gBuf := [], gQuiet := 0, gHint := .none }
          bq := [] })
    ∧ (s.running = false → exec .stop s = .next s)

/-- R88, R89, R90: the three expectation commands set `expect`, nothing else, and STATUS[17:16] then reads its code. -/
def Obligations.ArmCommandsSetExpectation : Prop :=
  ∀ s : State,
    (exec .armRn16 s = .next { s with expect := .rn16 }
      ∧ (statusWord { s with expect := .rn16 }).extractLsb' 16 2 = 1#2)
    ∧ (exec .armEpc s = .next { s with expect := .epc }
      ∧ (statusWord { s with expect := .epc }).extractLsb' 16 2 = 2#2)
    ∧ (exec .disarm s = .next { s with expect := .none }
      ∧ (statusWord { s with expect := .none }).extractLsb' 16 2 = 0#2)

/-- R91: POP removes the head record, and sets CMD_ERR when there is none. -/
def Obligations.PopRemovesHeadRecord : Prop :=
  ∀ s : State,
    (∀ r rest, s.oq = r :: rest → exec .pop s = .next { s with oq := rest })
    ∧ (s.oq = [] → exec .pop s = .next { s with cmdErr := true })

/-- R92: CLEAR_COUNTERS sets each of the nine counters to 0, also a saturated one. -/
def Obligations.ClearCountersZeroesAllNine : Prop :=
  ∀ s : State,
    exec .clearCounters s = .next
      { s with
        counters :=
          { bursts := 0, tooShort := 0, forced := 0, syncFail := 0, lenMismatch := 0, crcOk := 0, crcBad := 0,
            unsolicited := 0, collision := 0 } }

/-- R93: SOFT_RESET sets the runtime state and keeps the configuration, CONFIG_OK, IRQ_EN and CTRL. -/
def Obligations.SoftResetKeepsConfiguration : Prop :=
  ∀ s : State,
    exec .softReset s = .next
      { s with
        running := false
        gate := { gst := .searching, gStart := 0, gBuf := [], gQuiet := 0, gHint := .none }
        bq := []
        oq := []
        dq := []
        nf := 0
        sampleIndex := 0
        expect := .none
        counters :=
          { bursts := 0, tooShort := 0, forced := 0, syncFail := 0, lenMismatch := 0, crcOk := 0, crcBad := 0,
            unsolicited := 0, collision := 0 }
        configErr := false
        cmdErr := false }

/-- R69: the CMD words outside R68 are reserved, and a reserved word sets CMD_ERR and changes nothing else. -/
def Obligations.ReservedCommandOnlySetsCmdErr : Prop :=
  ∀ (w : Word) (s : State),
    w ∉ definedCmdWords → decodeCmd w = .cmdReserved w ∧ exec (.cmdReserved w) s = .next { s with cmdErr := true }

/-- R83: a CMD write runs the rule of the command its data word is, and sets CMD_ERR for every other word. -/
def Obligations.CmdWriteRunsTheNamedCommand : Prop :=
  ∀ (v : Word) (s : State),
    ∃ t : State,
      exec (.cmdWrite v) s = .next t
      ∧ (v = 0x00000000 → exec .nop s = .next t)
      ∧ (v = 0x00000001 → exec .recompute s = .next t)
      ∧ (v = 0x00000002 → exec .start s = .next t)
      ∧ (v = 0x00000003 → exec .stop s = .next t)
      ∧ (v = 0x00000004 → exec .armRn16 s = .next t)
      ∧ (v = 0x00000005 → exec .armEpc s = .next t)
      ∧ (v = 0x00000006 → exec .disarm s = .next t)
      ∧ (v = 0x00000007 → exec .pop s = .next t)
      ∧ (v = 0x00000008 → exec .clearCounters s = .next t)
      ∧ (v = 0x000000A5 → exec .softReset s = .next t)
      ∧ (v ∉ definedCmdWords → t = { s with cmdErr := true })

/-! Register accesses (40_host_commands.md R79 to R82; 20_memory.md R51 to R56) -/

/-- R79, R56, R66: every read at a word-aligned offset completes, gives the host a value and changes nothing else; what
any register of the window would read is the same after it. At the offset of a constant, a configuration register, a
derived register, the noise floor, the sample index or a counter the value is that register's. -/
def Obligations.RegReadReturnsRegisterWithoutSideEffect : Prop :=
  ∀ (off : Offset) (s : State), off.toNat % 4 = 0 →
    ∃ v : Word,
      exec (.regRead off) s = .next { s with rdata := v }
      ∧ (∀ off' : Offset, readAt off' { s with rdata := v } = readAt off' s)
      ∧ ∀ x : Word, (off, x) ∈ configReads s.base ++ liveReads s → v = x

/-- R20: STATUS as a read gives it, field by field, while the queues hold no more than their depths. -/
def Obligations.StatusReadFields : Prop :=
  ∀ s : State, s.bq.length ≤ 2 → s.oq.length ≤ 4 →
    ∃ v : Word,
      exec (.regRead 0x008) s = .next { s with rdata := v }
      ∧ v.toNat
          = (if s.running then 1 else 0) + (if s.configOk then 2 else 0) + (if s.configErr then 4 else 0)
            + (if s.cmdErr then 8 else 0) + (if s.oq = [] then 0 else 16) + (if s.oq.length = 4 then 32 else 0)
            + (if s.bq.length = 2 then 64 else 0) + (if s.gate.gst = .accumulating then 128 else 0)
            + 256 * s.oq.length + 2048 * s.bq.length + (if s.dq = [] then 0 else 16384)
            + 65536 * (match s.expect with | .none => 0 | .rn16 => 1 | .epc => 2)

/-- R22, R23, R37 with R96, R39: what IRQ_EN, CTRL, the two thresholds (saturated at 0xFFFFFFFF) and the two halves of
BURST_START read. -/
def Obligations.ControlThresholdAndBurstStartReads : Prop :=
  ∀ s : State,
    (∃ v : Word, exec (.regRead 0x010) s = .next { s with rdata := v }
      ∧ v.toNat = (if s.irqEn.cfgErrEn then 4 else 0) + (if s.irqEn.cmdErrEn then 8 else 0)
          + (if s.irqEn.frameEn then 16 else 0))
    ∧ exec (.regRead 0x014) s = .next { s with rdata := if s.diagEn then 1 else 0 }
    ∧ (∃ v : Word, exec (.regRead 0x094) s = .next { s with rdata := v }
      ∧ v.toNat
          = min (s.nf.toNat * s.active.enterScale.toNat / 256 + s.active.enterBias.toNat) 0xFFFFFFFF)
    ∧ (∃ v : Word, exec (.regRead 0x098) s = .next { s with rdata := v }
      ∧ v.toNat = min (s.nf.toNat * s.active.exitScale.toNat / 256 + s.active.exitBias.toNat) 0xFFFFFFFF)
    ∧ (s.gate.gst = .searching →
        exec (.regRead 0x0A8) s = .next { s with rdata := 0 } ∧ exec (.regRead 0x0AC) s = .next { s with rdata := 0 })
    ∧ (s.gate.gst = .accumulating →
        exec (.regRead 0x0A8) s = .next { s with rdata := s.gate.gStart.setWidth 32 }
        ∧ exec (.regRead 0x0AC) s = .next { s with rdata := (s.gate.gStart >>> 32).setWidth 32 })

/-- R51: a reserved offset reads 0 and ignores writes, CMD reads 0, and a read-only register ignores writes. -/
def Obligations.ReservedOffsetsReadZeroIgnoreWrites : Prop :=
  ∀ (off : Offset) (v : Word) (s : State), off.toNat % 4 = 0 →
    (ReservedOffset off → exec (.regRead off) s = .next { s with rdata := 0 } ∧ exec (.regWrite off v) s = .next s)
    ∧ (off = 0x00C → exec (.regRead off) s = .next { s with rdata := 0 })
    ∧ (off ∈ readOnlyOffsets → exec (.regWrite off v) s = .next s)

/-- R41, R72, R73: while the output FIFO is empty every word of the output window reads 0; otherwise its words other than
OUT_DATA read from the head record. -/
def Obligations.OutputWindowShowsHeadRecord : Prop :=
  (∀ (off : Offset) (s : State), off.toNat % 4 = 0 → 0x100 ≤ off.toNat → off.toNat ≤ 0x17C → s.oq = [] →
    exec (.regRead off) s = .next { s with rdata := 0 })
  ∧ ∀ (s : State) (r : Record) (rest : List Record), s.oq = r :: rest → r.valid = true →
    (∃ v : Word, exec (.regRead 0x100) s = .next { s with rdata := v }
      ∧ v.toNat
          = 1 + 2 * (match r.status with
              | .frameOk => 0 | .crcInvalid => 1 | .syncFailure => 2 | .lengthMismatch => 3 | .unsolicited => 4)
            + 16 * (match r.kind with | .unknown => 0 | .rn16 => 1 | .epc => 2)
            + (if r.crcValid then 64 else 0) + (if r.collision then 128 else 0) + (if r.polarity then 256 else 0)
            + 1024 * (match r.hint with | .none => 0 | .rn16 => 1 | .epc => 2) + 65536 * r.payloadLen.toNat)
    ∧ exec (.regRead 0x104) s = .next { s with rdata := r.startIndex.setWidth 32 }
    ∧ exec (.regRead 0x108) s = .next { s with rdata := (r.startIndex >>> 32).setWidth 32 }
    ∧ exec (.regRead 0x10C) s = .next { s with rdata := r.endIndex.setWidth 32 }
    ∧ exec (.regRead 0x110) s = .next { s with rdata := (r.endIndex >>> 32).setWidth 32 }
    ∧ (∃ v : Word, exec (.regRead 0x114) s = .next { s with rdata := v }
      ∧ v.toNat = 65536 * r.crcCalc.toNat + r.crcRx.toNat)
    ∧ (∃ v : Word, exec (.regRead 0x118) s = .next { s with rdata := v }
      ∧ v.toNat = 65536 * r.lowconfCount.toNat + r.violCount.toNat)
    ∧ exec (.regRead 0x11C) s = .next { s with rdata := r.syncOffset }
    ∧ exec (.regRead 0x120) s = .next { s with rdata := r.syncQ.setWidth 32 }

/-- R74: OUT_DATA holds the payload bits most significant bit first, bit b_j at bit 31 − (j mod 32) of OUT_DATA(j / 32),
and 0 beyond the payload. -/
def Obligations.OutDataHoldsPayloadMsbFirst : Prop :=
  ∀ (s : State) (r : Record) (rest : List Record) (bits : List Bool),
    s.oq = r :: rest → r.payload = packPayload bits → bits.length ≤ 512 →
    ∀ j : Nat, j < 512 →
      ∃ v : Word,
        exec (.regRead (BitVec.ofNat 12 (0x140 + 4 * (j / 32)))) s = .next { s with rdata := v }
        ∧ v.getLsbD (31 - j % 32) = bits.getD j false

/-- R80, for the base configuration registers: the register then reads v's low bits up to its width, every other one
reads as before, and nothing but the base configuration changes. -/
def Obligations.ConfigWriteStoresField : Prop :=
  ∀ (off : Offset) (width : Nat) (v : Word) (s : State), (off, width) ∈ configFields →
    ∃ b : BaseConfig,
      exec (.regWrite off v) s = .next { s with base := b }
      ∧ (off, BitVec.ofNat 32 (v.toNat % 2 ^ width)) ∈ configReads b
      ∧ ∀ (off' : Offset) (x : Word), off' ≠ off → (off', x) ∈ configReads s.base → (off', x) ∈ configReads b

/-- R80, for the other offsets REG_WRITE covers: IRQ_EN takes v[4:2], CTRL takes v[0], and every remaining word-aligned
offset but STATUS, CMD and NOISE_FLOOR is left alone. -/
def Obligations.RegWriteElsewhere : Prop :=
  ∀ (off : Offset) (v : Word) (s : State), off.toNat % 4 = 0 →
    (off = 0x010 →
      exec (.regWrite off v) s = .next
        { s with
          irqEn := { cfgErrEn := v.getLsbD 2, cmdErrEn := v.getLsbD 3, frameEn := v.getLsbD 4 } })
    ∧ (off = 0x014 → exec (.regWrite off v) s = .next { s with diagEn := v.getLsbD 0 })
    ∧ (off ∉ [0x008, 0x00C, 0x010, 0x014, 0x090] → off ∉ configFields.map Prod.fst →
        exec (.regWrite off v) s = .next s)

/-- R81: a STATUS write clears CONFIG_ERR where v[2] = 1 and CMD_ERR where v[3] = 1, and does nothing else. -/
def Obligations.StatusWriteClearsStickyBits : Prop :=
  ∀ (v : Word) (s : State),
    exec (.statusW1c v) s = .next
      { s with
        configErr := if v.getLsbD 2 = true then false else s.configErr
        cmdErr := if v.getLsbD 3 = true then false else s.cmdErr }

/-- R82: a NOISE_FLOOR write stores any 32-bit value while halted, and only sets CMD_ERR while running. -/
def Obligations.NoiseFloorWriteOnlyWhileHalted : Prop :=
  ∀ (v : Word) (s : State),
    (s.running = false → exec (.noiseFloorWrite v) s = .next { s with nf := v })
    ∧ (s.running = true → exec (.noiseFloorWrite v) s = .next { s with cmdErr := true })

/-- R52: a host access of another size, or at an offset with off[1:0] ≠ 0, is refused and has no next state. -/
def Obligations.AccessOutsideInterfaceRefused : Prop :=
  ∀ (s : State) (a : Access) (rest : List Turn), s.turns = .host a :: rest → a.size ≠ 4 ∨ a.off.toNat % 4 ≠ 0 →
    ∃ r : Refusal, step s = .refused r

/-! The gate (41_gate.md) -/

/-- R95: the detector statistic is I·I + Q·Q, at most 2^31, and 2^31 only at I = Q = −32768. -/
def Obligations.MagIsEnergy : Prop :=
  ∀ w : Word,
    (mag w : Int)
        = (w.extractLsb' 0 16).toInt * (w.extractLsb' 0 16).toInt
          + (w.extractLsb' 16 16).toInt * (w.extractLsb' 16 16).toInt
    ∧ mag w ≤ 2 ^ 31
    ∧ (mag w = 2 ^ 31 ↔ w = 0x80008000)

/-- R97: once the active configuration passed the check, the enter threshold lies above the exit threshold at every
noise floor; and a sample that triggers is never quiet (R98). -/
def Obligations.EnterThresholdAboveExit : Prop :=
  ∀ s : State, ConfigPasses s.active →
    exitThr s < enterThr s ∧ ∀ w : Word, triggers s w = true → quiet s w = false

/-- R99, R100, R101: a sample in SEARCHING that does not trigger moves the noise floor by floor((m − nf)/2^k), stays
between m and the old floor, and advances the index; nothing else changes. -/
def Obligations.QuietSearchingSampleMovesNoiseFloor : Prop :=
  ∀ (w : Word) (s : State),
    s.running = true → s.bq.length ≠ 2 → s.gate.gst = .searching → ¬ AboveEnter s w →
    ∃ nf' : Word,
      exec (.sample w) s = .next { s with sampleIndex := s.sampleIndex + 1, nf := nf' }
      ∧ (nf'.toNat : Int)
          = (s.nf.toNat : Int) + ((mag w : Int) - (s.nf.toNat : Int)).fdiv (2 ^ s.active.nfShift.toNat)
      ∧ min (mag w) s.nf.toNat ≤ nf'.toNat ∧ nf'.toNat ≤ max (mag w) s.nf.toNat
      ∧ (s.nf.toNat ≤ 2 ^ 31 → nf'.toNat ≤ 2 ^ 31)

/-- R101, R102, R104: a sample above the enter threshold opens a burst at its index with the current expectation; the
noise floor stays. At MAX_LEN = 1 that sample is a whole forced burst, or is discarded if MIN_LEN is above 1. -/
def Obligations.RisingEdgeOpensBurst : Prop :=
  ∀ (w : Word) (s : State),
    s.running = true → s.bq.length ≠ 2 → s.gate.gst = .searching → AboveEnter s w →
    (s.active.maxLen.toNat ≠ 1 →
      exec (.sample w) s = .next
        { s with
          sampleIndex := s.sampleIndex + 1
          gate :=
            { gst := .accumulating, gStart := s.sampleIndex, gBuf := [w], gQuiet := 0, gHint := s.expect } })
    ∧ (s.active.maxLen.toNat = 1 → s.active.minLen.toNat ≤ 1 →
      exec (.sample w) s = .next
        { s with
          sampleIndex := s.sampleIndex + 1
          gate := Gate.idle
          bq := s.bq ++ [⟨s.sampleIndex, s.sampleIndex + 1, [w], s.expect, true⟩]
          counters :=
            { s.counters with
              bursts := saturated s.counters.bursts
              forced := saturated s.counters.forced } })
    ∧ (s.active.maxLen.toNat = 1 → 1 < s.active.minLen.toNat →
      exec (.sample w) s = .next
        { s with
          sampleIndex := s.sampleIndex + 1
          gate := Gate.idle
          counters := { s.counters with tooShort := saturated s.counters.tooShort } })

/-- R101: a sample in ACCUMULATING that completes neither the dwell nor MAX_LEN is added to the burst. -/
def Obligations.SampleInsideBurstAccumulates : Prop :=
  ∀ (w : Word) (s : State),
    s.running = true → s.bq.length ≠ 2 → s.gate.gst = .accumulating →
    quietCount s w ≠ s.active.dwell.toNat → s.gate.gBuf.length + 1 ≠ s.active.maxLen.toNat →
    exec (.sample w) s = .next
      { s with
        sampleIndex := s.sampleIndex + 1
        gate := { s.gate with gBuf := s.gate.gBuf ++ [w], gQuiet := quietCount s w } }

/-- R103, R105, R106: when the dwell completes, the burst ends at the first sample of the quiet run, is not forced, and
is queued, whether or not this sample also brings it to MAX_LEN. -/
def Obligations.DwellEndsBurst : Prop :=
  ∀ (w : Word) (s : State),
    s.running = true → s.bq.length ≠ 2 → s.gate.gst = .accumulating → quietCount s w = s.active.dwell.toNat →
    s.active.minLen.toNat ≤ (s.sampleIndex + 1 - s.active.dwell.setWidth 64 - s.gate.gStart).toNat →
    exec (.sample w) s = .next
      { s with
        sampleIndex := s.sampleIndex + 1
        gate := Gate.idle
        bq := s.bq ++
          [⟨s.gate.gStart, s.sampleIndex + 1 - s.active.dwell.setWidth 64,
            (s.gate.gBuf ++ [w]).take (s.sampleIndex + 1 - s.active.dwell.setWidth 64 - s.gate.gStart).toNat,
            s.gate.gHint, false⟩]
        counters := { s.counters with bursts := saturated s.counters.bursts } }

/-- R104, R106: when the length reaches MAX_LEN and the dwell did not complete, the burst ends after this sample, is
forced, and is queued. -/
def Obligations.MaxLenForcesBurst : Prop :=
  ∀ (w : Word) (s : State),
    s.running = true → s.bq.length ≠ 2 → s.gate.gst = .accumulating →
    quietCount s w ≠ s.active.dwell.toNat → s.gate.gBuf.length + 1 = s.active.maxLen.toNat →
    s.active.minLen.toNat ≤ (s.sampleIndex + 1 - s.gate.gStart).toNat →
    exec (.sample w) s = .next
      { s with
        sampleIndex := s.sampleIndex + 1
        gate := Gate.idle
        bq := s.bq ++
          [⟨s.gate.gStart, s.sampleIndex + 1,
            (s.gate.gBuf ++ [w]).take (s.sampleIndex + 1 - s.gate.gStart).toNat, s.gate.gHint, true⟩]
        counters :=
          { s.counters with
            bursts := saturated s.counters.bursts
            forced := saturated s.counters.forced } }

/-- R106, R148: a finalized burst below MIN_LEN is discarded; the only trace is CNT_TOO_SHORT. -/
def Obligations.ShortBurstIsDiscarded : Prop :=
  ∀ (w : Word) (s : State),
    s.running = true → s.bq.length ≠ 2 → s.gate.gst = .accumulating →
    (quietCount s w = s.active.dwell.toNat
        ∧ (s.sampleIndex + 1 - s.active.dwell.setWidth 64 - s.gate.gStart).toNat < s.active.minLen.toNat)
      ∨ (quietCount s w ≠ s.active.dwell.toNat ∧ s.gate.gBuf.length + 1 = s.active.maxLen.toNat
        ∧ (s.sampleIndex + 1 - s.gate.gStart).toNat < s.active.minLen.toNat) →
    exec (.sample w) s = .next
      { s with
        sampleIndex := s.sampleIndex + 1
        gate := Gate.idle
        counters := { s.counters with tooShort := saturated s.counters.tooShort } }

/-- R8, R101, R141, R145: a step that has no input or no room is not enabled, and its agent takes no step: the gate while
halted or while the burst queue is full (the source keeps its word), the decoder while halted, without a burst or
without room for its output, the sink without an entry. -/
def Obligations.DisabledStepsWait : Prop :=
  ∀ s : State,
    (s.running = false ∨ s.bq.length = 2 →
      (∀ w : Word, exec (.sample w) s = .next s)
      ∧ ∀ rest, s.turns = .source :: rest → step s = .next { s with turns := rest })
    ∧ (s.running = false ∨ s.bq = [] ∨ 4 ≤ s.oq.length
        ∨ (s.diagEn = true ∧ ∃ b rest, s.bq = b :: rest ∧ 65536 < s.dq.length + b.samples.length) →
      exec .decode s = .next s)
    ∧ (s.dq = [] → exec .diagDrain s = .next s)

/-- R108, as the steps of R101 give it: from SEARCHING, N samples above the enter threshold and then DWELL samples at or
below the exit threshold give exactly one burst of exactly those N samples, if MIN_LEN ≤ N and N + DWELL ≤ MAX_LEN; and
none, with one BurstTooShort, if N is below MIN_LEN. (Log entry 13: R108 allows N up to MAX_LEN; see the next one.) -/
def Obligations.EnvelopeGivesExactlyItsBurst : Prop :=
  ∀ (s : State) (loud tail : List Word),
    s.running = true → s.bq.length < 2 → s.gate = Gate.idle → ConfigPasses s.active →
    loud ≠ [] → (∀ w ∈ loud, AboveEnter s w) →
    tail.length = s.active.dwell.toNat → (∀ w ∈ tail, AtOrBelowExit s w) →
    loud.length + s.active.dwell.toNat ≤ s.active.maxLen.toNat →
    (s.active.minLen.toNat ≤ loud.length →
      feed (loud ++ tail) s = some
        { s with
          sampleIndex := s.sampleIndex + BitVec.ofNat 64 (loud.length + tail.length)
          bq := s.bq ++
            [⟨s.sampleIndex, s.sampleIndex + BitVec.ofNat 64 loud.length, loud, s.expect, false⟩]
          counters := { s.counters with bursts := saturated s.counters.bursts } })
    ∧ (loud.length < s.active.minLen.toNat →
      feed (loud ++ tail) s = some
        { s with
          sampleIndex := s.sampleIndex + BitVec.ofNat 64 (loud.length + tail.length)
          counters := { s.counters with tooShort := saturated s.counters.tooShort } })

/-- R108 as written, with MIN_LEN ≤ N ≤ MAX_LEN only. Expected to FAIL: when MAX_LEN is reached inside the dwell, R104
forces the burst at MAX_LEN with quiet samples at its tail, so its length is not N (log entry 13). -/
def Obligations.EnvelopeLengthIsExactUpToMaxLen : Prop :=
  ∀ (s : State) (loud tail : List Word),
    s.running = true → s.bq.length < 2 → s.gate = Gate.idle → ConfigPasses s.active →
    (∀ w ∈ loud, AboveEnter s w) → s.active.dwell.toNat ≤ tail.length → (∀ w ∈ tail, AtOrBelowExit s w) →
    s.active.minLen.toNat ≤ loud.length → loud.length ≤ s.active.maxLen.toNat →
    ∃ (t : State) (b : Burst), feed (loud ++ tail) s = some t ∧ t.bq = s.bq ++ [b] ∧ b.samples.length = loud.length

/-- R109: the gate's behaviour does not depend on the expectation or on any decoder register. -/
def Obligations.GateIgnoresExpectationAndDecoder : Prop :=
  ∀ (w : Word) (s u : State), SameForGate s u →
    ∃ s' u' : State, exec (.sample w) s = .next s' ∧ exec (.sample w) u = .next u' ∧ SameForGate s' u'

/-! Synchronizer and bit decisions (42_sync_demod.md) -/

/-- R112, R113, R114: the demodulation signal is the energy with the floor of its burst mean removed; a chip sum is its
weighted sum over Hb samples, with weight 1 for FM0 and a square subcarrier of period SPS that starts at +1 for
Miller. -/
def Obligations.ChipSumsOfDemodSignal : Prop :=
  (∀ (xs : List Word) (i : Nat) (w : Word), xs[i]? = some w →
    (demodSignal xs).length = xs.length
    ∧ (demodSignal xs)[i]? = some ((mag w : Int) - (((xs.map mag).sum : Nat) : Int).fdiv xs.length))
  ∧ ∀ (t : Timing) (sig : List Int) (x : Nat), x + t.halfBit ≤ sig.length →
    t.chip sig x
      = ∑ i ∈ Finset.range t.halfBit,
          sig.getD (x + i) 0 * (if t.lineCode = 0 ∨ i % t.sps < t.sps / 2 then 1 else -1)

/-- R116, R118: corr(τ) is the sum of p_j·c_j(τ), A(τ) the sum of |c_j(τ)|, and |corr(τ)| ≤ A(τ). -/
def Obligations.CorrelationBoundedByAmplitude : Prop :=
  ∀ (t : Timing) (sig : List Int) (tau : Nat), t.preambleLen ≤ 32 →
    t.corr sig tau
        = ∑ j ∈ Finset.range t.preambleLen,
            (if t.preambleChips.getLsbD (31 - j) = true then 1 else -1) * t.chip sig (tau + j * t.halfBit)
    ∧ t.amplitude sig tau = ∑ j ∈ Finset.range t.preambleLen, (t.chip sig (tau + j * t.halfBit)).natAbs
    ∧ (t.corr sig tau).natAbs ≤ t.amplitude sig tau

/-- R117, R119: the chosen phase is a candidate with the largest |corr|, the smallest such τ; there is none exactly when
no τ is a candidate. -/
def Obligations.SyncPicksFirstLargestPeak : Prop :=
  ∀ (t : Timing) (sig : List Int),
    (t.findPeak sig = none ↔ ∀ tau : Nat, ¬ (tau < t.window ∧ tau + t.preambleLen * t.halfBit ≤ sig.length))
    ∧ ∀ p : Peak, t.findPeak sig = some p →
        p.offset < t.window ∧ p.offset + t.preambleLen * t.halfBit ≤ sig.length
        ∧ p.corr = t.corr sig p.offset ∧ p.amp = t.amplitude sig p.offset
        ∧ ∀ tau : Nat, tau < t.window → tau + t.preambleLen * t.halfBit ≤ sig.length →
            (t.corr sig tau).natAbs ≤ p.corr.natAbs ∧ (tau < p.offset → (t.corr sig tau).natAbs < p.corr.natAbs)

/-- R128: negating the signal negates every chip sum, leaves every bit and boundary with nonzero chip sums as it was,
and keeps the phase, the amplitude and |corr| that the search reports. -/
def Obligations.InvertedSignalDecodesAlike : Prop :=
  (∀ (t : Timing) (sig : List Int) (x : Nat), t.chip (sig.map (fun v => -v)) x = -t.chip sig x)
  ∧ (∀ (lc : Nat) (a b : Decision), a.h1 ≠ 0 → a.h2 ≠ 0 → b.h1 ≠ 0 → b.h2 ≠ 0 →
      Decision.bit lc ⟨-a.h1, -a.h2⟩ = a.bit lc
      ∧ boundaryViolated lc ⟨-a.h1, -a.h2⟩ ⟨-b.h1, -b.h2⟩ = boundaryViolated lc a b)
  ∧ ∀ (t : Timing) (sig : List Int),
      t.findPeak (sig.map (fun v => -v)) = (t.findPeak sig).map (fun p => { p with corr := -p.corr })

/-- R125, R126, R137 with R122 to R124: a noise-free signal of any bits in any line code, at any offset, half-bit length
and amplitude, decodes to those bits, with no boundary violation and no low-confidence bit up to the chip sum's size. -/
def Obligations.LineCodeSignalDecodesToItsBits : Prop :=
  ∀ (t : Timing) (before after : List Int) (bits : List Bool) (prev : Bool) (level a : Int),
    0 < t.halfBit → 0 < a → level = 1 ∨ level = -1 →
    let ds := t.decisions (before ++ levelsSignal t a (lineLevels t.lineCode level prev bits) ++ after)
      before.length bits.length
    ds.map (Decision.bit t.lineCode) = bits ∧ violations t.lineCode ds = 0
      ∧ ∀ thr : Nat, (thr : Int) ≤ a * t.halfBit → lowConfidence thr ds = 0

/-- R143, for every payload and both kinds: a burst whose signal is the preamble's chips and then the line code's chips of
a payload and its CRC, at one amplitude, with nothing louder after it, decodes to FRAME_OK with that payload. -/
def Obligations.CleanReplyDecodesToItsPayload : Prop :=
  ∀ (c : BaseConfig) (t : Timing) (b : Burst) (payload : List Bool) (after : List Int) (prev : Bool) (level a : Int),
    t.lineCode = c.lineCode.toNat → 0 < t.halfBit → 0 < t.window → 0 < t.preambleLen → t.preambleLen ≤ 32 →
    c.syncThr.toNat ≤ 256 → 0 < a → level = 1 ∨ level = -1 → (∀ v ∈ after, (v.natAbs : Int) ≤ a) →
    b.hint ≠ .none → payload.length = (payloadBits c.epcBits b.hint).toNat →
    demodSignal b.samples
        = levelsSignal t a
            ((List.range t.preambleLen).map t.preambleChip
              ++ lineLevels t.lineCode level prev
                (payload ++ List.ofFn fun i : Fin 16 => (crc c.crcPoly c.crcInit c.crcXorout payload).getMsbD i))
          ++ after →
    let r := recordOf c t b
    r.status = .frameOk ∧ r.crcValid = true
      ∧ (b.hint = .rn16 → r.kind = .rn16) ∧ (b.hint = .epc → r.kind = .epc)
      ∧ r.payloadLen.toNat = payload.length ∧ r.payload = packPayload payload ∧ r.syncOffset = 0 ∧ r.syncQ = 256 ∧ r.polarity = false ∧ r.violCount = 0
      ∧ ((c.collConfThr.toNat : Int) ≤ a * t.halfBit → r.lowconfCount = 0 ∧ (r.collision = true ↔ c.collThr = 0))

/-! Frame, CRC, collision, DECODE and DIAG_DRAIN (43_frame_crc_collision.md) -/

/-- R135: the listed CRC values, and the residue of a payload followed by its CRC. -/
def Obligations.CrcValuesAndResidue : Prop :=
  (crc 0x1021 0xFFFF 0xFFFF (List.ofFn fun i : Fin 16 => (0xABCD#16).getMsbD i) = 0x2B95
    ∧ crc 0x1021 0xFFFF 0xFFFF (List.ofFn fun i : Fin 16 => (0x0000#16).getMsbD i) = 0xE2F0
    ∧ crc 0x1021 0xFFFF 0xFFFF (List.ofFn fun i : Fin 16 => (0xFFFF#16).getMsbD i) = 0xFFFF
    ∧ crc 0x1021 0xFFFF 0xFFFF (List.ofFn fun i : Fin 16 => (0x1234#16).getMsbD i) = 0xF136
    ∧ crc 0x1021 0xFFFF 0xFFFF (List.ofFn fun i : Fin 16 => (0xABCC#16).getMsbD i) = 0x3BB4
    ∧ crc 0x1021 0xFFFF 0xFFFF (List.ofFn fun i : Fin 16 => (0xABCF#16).getMsbD i) = 0x0BD7
    ∧ crc 0x1021 0xFFFF 0xFFFF (List.ofFn fun i : Fin 16 => (0x2BCD#16).getMsbD i) = 0x300D
    ∧ crc 0x1021 0xFFFF 0xFFFF [] = 0x0000
    ∧ crc 0x1021 0xFFFF 0xFFFF
        (List.ofFn fun i : Fin 112 => (0x3000E20034120123456789ABCDEF#112).getMsbD i) = 0x2E64
    ∧ crc 0x1021 0xFFFF 0xFFFF (List.ofFn fun i : Fin 72 => (0x313233343536373839#72).getMsbD i) = 0xD64E)
  ∧ ∀ bits : List Bool,
      crc 0x1021 0xFFFF 0x0000
        (bits ++ List.ofFn fun i : Fin 16 => (crc 0x1021 0xFFFF 0xFFFF bits).getMsbD i) = 0x1D0F

/-- R136: with POLY[0] = 1, flipping exactly one of the P + 16 bits of a frame whose CRC field matches makes the CRC not
match. -/
def Obligations.CrcCatchesEverySingleBitFlip : Prop :=
  ∀ (poly init xorout : BitVec 16) (bits : List Bool) (p i : Nat),
    poly.getLsbD 0 = true → bits.length = p + 16 → i < bits.length →
    crc poly init xorout (bits.take p) = BitVec.ofNat 16 (bitsToNat (bits.drop p)) →
    crc poly init xorout ((bits.set i (!bits.getD i false)).take p)
      ≠ BitVec.ofNat 16 (bitsToNat ((bits.set i (!bits.getD i false)).drop p))

/-- R115, R124 to R127, R130, R132, R134, R137, R138, R140, R76: the record of a burst whose N bits were decided. The bit
and boundary rules are written out with the sign of R115, so a chip sum of 0 counts as positive; the payload length and
the kind are written out by cases of the hint. -/
def Obligations.FrameRecordFields : Prop :=
  ∀ (c : BaseConfig) (b : Burst) (p : Peak) (ds : List Decision) (k : Nat),
    b.hint = .rn16 ∧ k = 16 ∨ b.hint = .epc ∧ k = c.epcBits.toNat → k ≤ 512 → ds.length = k + 16 →
    let fm0 := c.lineCode.toNat = 0
    let h1 := fun j => (ds.map Decision.h1).getD j 0
    let h2 := fun j => (ds.map Decision.h2).getD j 0
    let bits := ds.map fun d => if fm0 then decide (0 ≤ d.h1 ↔ 0 ≤ d.h2) else decide ¬(0 ≤ d.h1 ↔ 0 ≤ d.h2)
    let bit := fun j => bits.getD j false
    let bnd := fun j => decide ¬(0 ≤ h2 j ↔ 0 ≤ h1 (j + 1))
    let viol :=
      ((List.range (k + 15)).filter fun j =>
        bnd j != (if fm0 then true else !bit j && !bit (j + 1))).length
    let low := (ds.filter fun d => decide (min d.h1.natAbs d.h2.natAbs < c.collConfThr.toNat)).length
    let r := frameRecord c b p ds
    r.violCount.toNat = viol ∧ r.lowconfCount.toNat = low
      ∧ (r.collision = true ↔ c.collThr.toNat ≤ viol + low)
      ∧ r.crcRx.toNat = ∑ j ∈ Finset.range 16, (bit (k + j)).toNat * 2 ^ (15 - j)
      ∧ r.crcCalc = crc c.crcPoly c.crcInit c.crcXorout (bits.take k)
      ∧ (r.crcCalc = r.crcRx → r.status = .frameOk ∧ r.crcValid = true)
      ∧ (r.crcCalc ≠ r.crcRx → r.status = .crcInvalid ∧ r.crcValid = false)
      ∧ r.payload = packPayload (bits.take k)
      ∧ (b.hint = .rn16 → r.kind = .rn16) ∧ (b.hint = .epc → r.kind = .epc)
      ∧ r.hint = b.hint ∧ r.payloadLen.toNat = k ∧ r.valid = true
      ∧ r.startIndex = b.startIndex ∧ r.endIndex = b.endIndex
      ∧ r.polarity = decide (p.corr < 0) ∧ r.syncOffset = BitVec.ofNat 32 p.offset
      ∧ r.syncQ = BitVec.ofNat 9 (256 * p.corr.natAbs / p.amp)

/-- R120, R131, R139, R140, R141, R156: the outcomes of a burst, in the order they are tested: without a hint an
UNSOLICITED record with the burst's indices and every other field 0; with one, no lock, too short, a frame. -/
def Obligations.DecodeOutcomesInOrder : Prop :=
  ∀ (c : BaseConfig) (t : Timing) (b : Burst),
    let sig := demodSignal b.samples
    let n := (match b.hint with | .epc => c.epcBits.toNat | _ => 16) + 16
    let noFrame := fun (st : RecStatus) (pol : Bool) (off : Word) (q : BitVec 9) =>
      ({ valid := true, status := st, kind := .unknown, crcValid := false, collision := false, polarity := pol,
         hint := b.hint, payloadLen := 0, startIndex := b.startIndex, endIndex := b.endIndex, crcCalc := 0, crcRx := 0,
         violCount := 0, lowconfCount := 0, syncOffset := off, syncQ := q, payload := 0 } : Record)
    (b.hint = .none → recordOf c t b = noFrame .unsolicited false 0 0)
    ∧ (b.hint ≠ .none → t.findPeak sig = none → recordOf c t b = noFrame .syncFailure false 0 0)
    ∧ ∀ p : Peak, b.hint ≠ .none → t.findPeak sig = some p →
        let q := BitVec.ofNat 9 (if 0 < p.amp then 256 * p.corr.natAbs / p.amp else 0)
        let d0 := p.offset + t.preambleLen * t.halfBit
        (p.amp = 0 ∨ 256 * p.corr.natAbs < c.syncThr.toNat * p.amp →
          recordOf c t b = noFrame .syncFailure (decide (p.corr < 0)) (BitVec.ofNat 32 p.offset) q)
        ∧ (p.amp ≠ 0 → c.syncThr.toNat * p.amp ≤ 256 * p.corr.natAbs →
            (b.samples.length < d0 + 2 * n * t.halfBit →
              recordOf c t b = noFrame .lengthMismatch (decide (p.corr < 0)) (BitVec.ofNat 32 p.offset) q)
            ∧ (d0 + 2 * n * t.halfBit ≤ b.samples.length →
              recordOf c t b = frameRecord c b p (t.decisions sig d0 n)))

/-- R141, R142, R144: an enabled DECODE takes the head burst, appends its record, copies its samples to the diagnostic
queue if DIAG_EN = 1, and counts the record's status exactly once and its collision flag; nothing else changes. The
record is made with the line code and the preamble of the active configuration and with SPS, HALF_BIT and SYNC_WINDOW of
the derived registers (R34, R110, R111, R116, R117). -/
def Obligations.DecodeTakesHeadBurst : Prop :=
  ∀ (s : State) (b : Burst) (rest : List Burst),
    s.running = true → s.bq = b :: rest → s.oq.length < 4 →
    s.diagEn = false ∨ s.dq.length + b.samples.length ≤ 65536 →
    let timing : Timing :=
      { lineCode := s.active.lineCode.toNat
        sps := s.derived.sps.toNat
        halfBit := s.derived.halfBit.toNat
        window := s.derived.syncWindow.toNat
        preambleLen := s.active.preambleLen.toNat
        preambleChips := s.active.preambleChips }
    let made := recordOf s.active timing b
    ∃ c : Counters,
      exec .decode s = .next
        { s with
          bq := rest
          oq := s.oq ++ [made]
          dq := if s.diagEn = true then s.dq ++ diagEntries b.samples else s.dq
          counters := c }
      ∧ c.crcOk = (if made.status = .frameOk then saturated s.counters.crcOk else s.counters.crcOk)
      ∧ c.crcBad = (if made.status = .crcInvalid then saturated s.counters.crcBad else s.counters.crcBad)
      ∧ c.syncFail = (if made.status = .syncFailure then saturated s.counters.syncFail else s.counters.syncFail)
      ∧ c.lenMismatch = (if made.status = .lengthMismatch then saturated s.counters.lenMismatch else s.counters.lenMismatch)
      ∧ c.unsolicited = (if made.status = .unsolicited then saturated s.counters.unsolicited else s.counters.unsolicited)
      ∧ c.collision = (if made.collision = true then saturated s.counters.collision else s.counters.collision)
      ∧ c.bursts = s.counters.bursts ∧ c.tooShort = s.counters.tooShort ∧ c.forced = s.counters.forced

/-- R144, R145: the diagnostic copy of a burst is its words in order, with last = 1 on the final one alone; DIAG_DRAIN
delivers the head entry, whether G2RX runs or not. -/
def Obligations.DiagnosticCopyAndDrain : Prop :=
  (∀ (xs : List Word) (i : Nat) (w : Word), xs[i]? = some w →
    (diagEntries xs).length = xs.length ∧ (diagEntries xs)[i]? = some ⟨w, decide (i + 1 = xs.length)⟩)
  ∧ ∀ (s : State) (e : DiagEntry) (rest : List DiagEntry), s.dq = e :: rest →
      exec .diagDrain s = .next { s with dq := rest, delivered := s.delivered ++ [e] }

/-! The whole machine -/

/-- R157: the interrupt line. R158: it is deasserted at hard reset and after SOFT_RESET, which keeps IRQ_EN. -/
def Obligations.InterruptLine : Prop :=
  (∀ s : State,
    irq s = true ↔
      (s.irqEn.cfgErrEn = true ∧ s.configErr = true) ∨ (s.irqEn.cmdErrEn = true ∧ s.cmdErr = true)
        ∨ (s.irqEn.frameEn = true ∧ s.oq ≠ []))
  ∧ (State.reset.irqEn = ⟨false, false, false⟩ ∧ irq State.reset = false)
  ∧ ∀ s : State, ∃ t : State, exec .softReset s = .next t ∧ t.irqEn = s.irqEn ∧ irq t = false

/-- R154: the causes of CommandError are exactly these, and the refused operation changes nothing but CMD_ERR. -/
def Obligations.CommandErrorHasExactlyFiveCauses : Prop :=
  ∀ (i : Instr) (s : State), i.wf = true →
    (CommandErrorCause i s → exec i s = .next { s with cmdErr := true })
    ∧ (¬ CommandErrorCause i s → ∃ t : State, exec i s = .next t ∧ (t.cmdErr = true → s.cmdErr = true))

/-- R34, R63, R171: only a RECOMPUTE while halted, by itself or as a CMD write, changes the active configuration or the
derived registers, and it latches the base configuration. -/
def Obligations.OnlyHaltedRecomputeChangesActive : Prop :=
  ∀ (i : Instr) (s t : State), i.wf = true → exec i s = .next t → t.active ≠ s.active ∨ t.derived ≠ s.derived →
    s.running = false ∧ (i = .recompute ∨ i = .cmdWrite 0x00000001) ∧ t.active = s.base ∧ t.configOk = true

/-- R48: what writes CONFIG_OK, what sets CONFIG_ERR, and what clears CONFIG_ERR and CMD_ERR. -/
def Obligations.StatusFlagWriters : Prop :=
  ∀ (i : Instr) (s t : State), i.wf = true → exec i s = .next t →
    (t.configOk ≠ s.configOk → i = .recompute ∨ i = .cmdWrite 0x00000001)
    ∧ (s.configErr = false → t.configErr = true → i = .recompute ∨ i = .cmdWrite 0x00000001)
    ∧ ((s.configErr = true ∧ t.configErr = false) ∨ (s.cmdErr = true ∧ t.cmdErr = false) →
        (∃ v, i = .statusW1c v) ∨ i = .softReset ∨ i = .cmdWrite 0x000000A5)

/-- R38: an accepted sample adds 1 modulo 2^64 to SAMPLE_INDEX, SOFT_RESET sets it to 0, and no other operation changes
it. -/
def Obligations.SampleIndexCountsAcceptedSamples : Prop :=
  ∀ (i : Instr) (s t : State), i.wf = true → exec i s = .next t →
    ((∃ w, i = .sample w) ∧ s.running = true ∧ s.bq.length ≠ 2 → t.sampleIndex = s.sampleIndex + 1)
    ∧ (i = .softReset ∨ i = .cmdWrite 0x000000A5 → t.sampleIndex = 0)
    ∧ (¬ ((∃ w, i = .sample w) ∧ s.running = true ∧ s.bq.length ≠ 2) → i ≠ .softReset → i ≠ .cmdWrite 0x000000A5 →
        t.sampleIndex = s.sampleIndex)

/-- R175: a record at the head of the output FIFO stays there until POP or SOFT_RESET. -/
def Obligations.HeadRecordStaysUntilPop : Prop :=
  ∀ (i : Instr) (s t : State) (r : Record) (rest : List Record), i.wf = true → exec i s = .next t →
    s.oq = r :: rest → i ≠ .pop → i ≠ .softReset → i ≠ .cmdWrite 0x00000007 → i ≠ .cmdWrite 0x000000A5 →
    ∃ more : List Record, t.oq = r :: rest ++ more

/-- R8, R55, R146: every operation of the table completes in every state, in a next state; none faults or is refused. -/
def Obligations.EveryOperationCompletes : Prop :=
  ∀ (i : Instr) (s : State), i.wf = true → ∃ t : State, exec i s = .next t

/-- R166: the values of hard reset, as the host reads them and in the internal state. -/
def Obligations.HardResetValues : Prop :=
  (∀ off v, (off, v) ∈ configReads State.reset.base → (off, v) ∈
    ([(0x020, 0), (0x024, 1), (0x028, 0), (0x02C, 0), (0x030, 0), (0x034, 0), (0x038, 0), (0x03C, 192), (0x040, 112),
      (0x044, 0x1021), (0x048, 0xFFFF), (0x04C, 0xFFFF), (0x050, 0x0400), (0x054, 0x0200), (0x058, 1), (0x05C, 0),
      (0x060, 8), (0x064, 16), (0x068, 65536), (0x06C, 4), (0x070, 0), (0x074, 1)] : List (Offset × Word)))
  ∧ State.reset.active = State.reset.base
  ∧ readAt 0x000 State.reset = 0x47325258 ∧ readAt 0x004 State.reset = 0x00010000
  ∧ readAt 0x008 State.reset = 0 ∧ readAt 0x010 State.reset = 0 ∧ readAt 0x014 State.reset = 0
  ∧ readAt 0x094 State.reset = 1 ∧ readAt 0x098 State.reset = 0
  ∧ (∀ off ∈ ([0x080, 0x084, 0x088, 0x08C, 0x090, 0x0A0, 0x0A4, 0x0A8, 0x0AC, 0x0B0, 0x0B4, 0x0B8, 0x0BC, 0x0C0, 0x0C4,
      0x0C8, 0x0CC, 0x0D0, 0x100, 0x104, 0x108, 0x10C, 0x110, 0x114, 0x118, 0x11C, 0x120, 0x140, 0x144, 0x148, 0x14C,
      0x150, 0x154, 0x158, 0x15C, 0x160, 0x164, 0x168, 0x16C, 0x170, 0x174, 0x178, 0x17C] : List Offset),
      readAt off State.reset = 0)
  ∧ State.reset.running = false ∧ State.reset.expect = .none
  ∧ State.reset.gate = ⟨.searching, 0, [], 0, .none⟩
  ∧ State.reset.bq = [] ∧ State.reset.oq = [] ∧ State.reset.dq = [] ∧ irq State.reset = false

/-- R43, R45, R46, R76, R169, R15, R86 together: the invariant holds after hard reset. -/
def Obligations.InvariantHoldsAtReset : Prop := Inv State.reset

/-- R43, R45, R46, R76, R169, R15, R86 together: every step of every agent keeps the invariant. -/
def Obligations.EveryStepKeepsInvariant : Prop :=
  ∀ s t : State, Inv s → step s = .next t → Inv t

/-! Encoding and the step (30_encoding.md) -/

/-- R65 to R70: decoding the unit that carries a well-formed operation gives it back, with every operand. -/
def Obligations.DecodeOfEncode : Prop := ∀ i : Instr, i.wf = true → decode (encode i) = .ok i

/-- R65 to R70: what is decoded is well formed, and its encoding is the unit it came from (but for the data word that a
read does not carry). -/
def Obligations.EncodeOfDecode : Prop :=
  ∀ (u : Xfer) (i : Instr), decode u = .ok i →
    i.wf = true ∧ (encode i = u ∨ ∃ a : Access, u = .bus a ∧ a.dir = .read ∧ encode i = .bus { a with data := 0 })

/-- R67, R68, R70: a few words written out from the encodings. -/
def Obligations.WrittenOutWordsDecode : Prop :=
  decode (.cmd 0x00000003) = .ok .stop ∧ decode (.cmd 0x000000A5) = .ok .softReset
  ∧ decode (.cmd 0x00000100) = .ok (.cmdReserved 0x00000100)
  ∧ decode (.bus ⟨.write, 4, 0x008, 0x4⟩) = .ok (.statusW1c 0x4)
  ∧ decode (.bus ⟨.write, 4, 0x060, 9⟩) = .ok (.regWrite 0x060 9)
  ∧ decode (.bus ⟨.read, 4, 0x090, 0⟩) = .ok (.regRead 0x090)
  ∧ decode (.sample 0x00020024) = .ok (.sample 0x00020024)

/-- R7, R59: the step of the agent whose turn it is runs the operation its unit decodes to, in the state with that turn
(and a sample word that is taken) used up. That the turns are a list is the model's own (log entry 1). -/
def Obligations.StepRunsTheDecodedOperation : Prop :=
  ∀ (s : State) (rest : List Turn),
    (∀ (a : Access) (i : Instr), s.turns = .host a :: rest → decode (.bus a) = .ok i →
      step s = exec i { s with turns := rest })
    ∧ (∀ w : Word, s.turns = .command w :: rest → step s = exec (decodeCmd w) { s with turns := rest })
    ∧ (∀ (w : Word) (ws : List Word), s.turns = .source :: rest → s.input = w :: ws → s.running = true →
      s.bq.length ≠ 2 → step s = exec (.sample w) { s with turns := rest, input := ws })
    ∧ (s.turns = .decoder :: rest → step s = exec .decode { s with turns := rest })
    ∧ (s.turns = .sink :: rest → step s = exec .diagDrain { s with turns := rest })

/-- The model's own (log entries 2 and 9), not a rule: with no turn waiting nothing changes, a source without a word
only uses up its turn, and the platform's reset leaves the state of hard reset beside the outside world's streams. -/
def Obligations.StepWithoutOperation : Prop :=
  ∀ (s : State) (rest : List Turn),
    (s.turns = [] → step s = .next s)
    ∧ (s.turns = .source :: rest → s.input = [] → step s = .next { s with turns := rest })
    ∧ (s.turns = .platformReset :: rest →
      step s = .next
        { State.reset with rdata := s.rdata, delivered := s.delivered, input := s.input, turns := rest })
end

