-- ==== Sys2Proof/Laws/State.lean ====
section
/-! SUPPORT. One lemma for each field of State and each named update, so that no proof unfolds a record update. -/

namespace Sys2Proof.Machine

variable (s : State)

/-! `State.count`: only the counters change -/

@[simp] theorem count_running (r : CounterReg) : (s.count r).running = s.running := rfl
@[simp] theorem count_configOk (r : CounterReg) : (s.count r).configOk = s.configOk := rfl
@[simp] theorem count_configErr (r : CounterReg) : (s.count r).configErr = s.configErr := rfl
@[simp] theorem count_cmdErr (r : CounterReg) : (s.count r).cmdErr = s.cmdErr := rfl
@[simp] theorem count_irqEn (r : CounterReg) : (s.count r).irqEn = s.irqEn := rfl
@[simp] theorem count_diagEn (r : CounterReg) : (s.count r).diagEn = s.diagEn := rfl
@[simp] theorem count_base (r : CounterReg) : (s.count r).base = s.base := rfl
@[simp] theorem count_active (r : CounterReg) : (s.count r).active = s.active := rfl
@[simp] theorem count_derived (r : CounterReg) : (s.count r).derived = s.derived := rfl
@[simp] theorem count_nf (r : CounterReg) : (s.count r).nf = s.nf := rfl
@[simp] theorem count_sampleIndex (r : CounterReg) : (s.count r).sampleIndex = s.sampleIndex := rfl
@[simp] theorem count_counters (r : CounterReg) : (s.count r).counters = s.counters.bump r := rfl
@[simp] theorem count_gate (r : CounterReg) : (s.count r).gate = s.gate := rfl
@[simp] theorem count_expect (r : CounterReg) : (s.count r).expect = s.expect := rfl
@[simp] theorem count_bq (r : CounterReg) : (s.count r).bq = s.bq := rfl
@[simp] theorem count_oq (r : CounterReg) : (s.count r).oq = s.oq := rfl
@[simp] theorem count_dq (r : CounterReg) : (s.count r).dq = s.dq := rfl
@[simp] theorem count_rdata (r : CounterReg) : (s.count r).rdata = s.rdata := rfl
@[simp] theorem count_delivered (r : CounterReg) : (s.count r).delivered = s.delivered := rfl
@[simp] theorem count_input (r : CounterReg) : (s.count r).input = s.input := rfl
@[simp] theorem count_turns (r : CounterReg) : (s.count r).turns = s.turns := rfl

/-! `State.raise`: what each event records (60_exceptions.md R147) -/

@[simp] theorem raise_commandError : s.raise .commandError = { s with cmdErr := true } := rfl
@[simp] theorem raise_configurationInvalid :
    s.raise .configurationInvalid = { s with configErr := true, configOk := false } := rfl
@[simp] theorem raise_burstTooShort : s.raise .burstTooShort = s.count .tooShort := rfl
@[simp] theorem raise_crcInvalid : s.raise .crcInvalid = s.count .crcBad := rfl
@[simp] theorem raise_syncFailure : s.raise .syncFailure = s.count .syncFail := rfl
@[simp] theorem raise_frameLengthMismatch : s.raise .frameLengthMismatch = s.count .lenMismatch := rfl
@[simp] theorem raise_unsolicited : s.raise .unsolicited = s.count .unsolicited := rfl

/-! `State.flush` (40_host_commands.md R87) -/

@[simp] theorem flush_running : s.flush.running = false := rfl
@[simp] theorem flush_configOk : s.flush.configOk = s.configOk := rfl
@[simp] theorem flush_configErr : s.flush.configErr = s.configErr := rfl
@[simp] theorem flush_cmdErr : s.flush.cmdErr = s.cmdErr := rfl
@[simp] theorem flush_irqEn : s.flush.irqEn = s.irqEn := rfl
@[simp] theorem flush_diagEn : s.flush.diagEn = s.diagEn := rfl
@[simp] theorem flush_base : s.flush.base = s.base := rfl
@[simp] theorem flush_active : s.flush.active = s.active := rfl
@[simp] theorem flush_derived : s.flush.derived = s.derived := rfl
@[simp] theorem flush_nf : s.flush.nf = s.nf := rfl
@[simp] theorem flush_sampleIndex : s.flush.sampleIndex = s.sampleIndex := rfl
@[simp] theorem flush_counters : s.flush.counters = s.counters := rfl
@[simp] theorem flush_gate : s.flush.gate = Gate.idle := rfl
@[simp] theorem flush_expect : s.flush.expect = s.expect := rfl
@[simp] theorem flush_bq : s.flush.bq = [] := rfl
@[simp] theorem flush_oq : s.flush.oq = s.oq := rfl
@[simp] theorem flush_dq : s.flush.dq = s.dq := rfl
@[simp] theorem flush_rdata : s.flush.rdata = s.rdata := rfl
@[simp] theorem flush_delivered : s.flush.delivered = s.delivered := rfl
@[simp] theorem flush_input : s.flush.input = s.input := rfl
@[simp] theorem flush_turns : s.flush.turns = s.turns := rfl

/-! `State.softReset` (R93) -/

@[simp] theorem softReset_running : s.softReset.running = false := rfl
@[simp] theorem softReset_configOk : s.softReset.configOk = s.configOk := rfl
@[simp] theorem softReset_configErr : s.softReset.configErr = false := rfl
@[simp] theorem softReset_cmdErr : s.softReset.cmdErr = false := rfl
@[simp] theorem softReset_irqEn : s.softReset.irqEn = s.irqEn := rfl
@[simp] theorem softReset_diagEn : s.softReset.diagEn = s.diagEn := rfl
@[simp] theorem softReset_base : s.softReset.base = s.base := rfl
@[simp] theorem softReset_active : s.softReset.active = s.active := rfl
@[simp] theorem softReset_derived : s.softReset.derived = s.derived := rfl
@[simp] theorem softReset_nf : s.softReset.nf = 0 := rfl
@[simp] theorem softReset_sampleIndex : s.softReset.sampleIndex = 0 := rfl
@[simp] theorem softReset_counters : s.softReset.counters = Counters.zero := rfl
@[simp] theorem softReset_gate : s.softReset.gate = Gate.idle := rfl
@[simp] theorem softReset_expect : s.softReset.expect = .none := rfl
@[simp] theorem softReset_bq : s.softReset.bq = [] := rfl
@[simp] theorem softReset_oq : s.softReset.oq = [] := rfl
@[simp] theorem softReset_dq : s.softReset.dq = [] := rfl
@[simp] theorem softReset_rdata : s.softReset.rdata = s.rdata := rfl
@[simp] theorem softReset_delivered : s.softReset.delivered = s.delivered := rfl
@[simp] theorem softReset_input : s.softReset.input = s.input := rfl
@[simp] theorem softReset_turns : s.softReset.turns = s.turns := rfl

/-! `State.hardReset` (70_reset_and_hazards.md R166) -/

@[simp] theorem hardReset_running : s.hardReset.running = State.reset.running := rfl
@[simp] theorem hardReset_configOk : s.hardReset.configOk = State.reset.configOk := rfl
@[simp] theorem hardReset_configErr : s.hardReset.configErr = State.reset.configErr := rfl
@[simp] theorem hardReset_cmdErr : s.hardReset.cmdErr = State.reset.cmdErr := rfl
@[simp] theorem hardReset_irqEn : s.hardReset.irqEn = State.reset.irqEn := rfl
@[simp] theorem hardReset_diagEn : s.hardReset.diagEn = State.reset.diagEn := rfl
@[simp] theorem hardReset_base : s.hardReset.base = State.reset.base := rfl
@[simp] theorem hardReset_active : s.hardReset.active = State.reset.active := rfl
@[simp] theorem hardReset_derived : s.hardReset.derived = State.reset.derived := rfl
@[simp] theorem hardReset_nf : s.hardReset.nf = State.reset.nf := rfl
@[simp] theorem hardReset_sampleIndex : s.hardReset.sampleIndex = State.reset.sampleIndex := rfl
@[simp] theorem hardReset_counters : s.hardReset.counters = State.reset.counters := rfl
@[simp] theorem hardReset_gate : s.hardReset.gate = State.reset.gate := rfl
@[simp] theorem hardReset_expect : s.hardReset.expect = State.reset.expect := rfl
@[simp] theorem hardReset_bq : s.hardReset.bq = State.reset.bq := rfl
@[simp] theorem hardReset_oq : s.hardReset.oq = State.reset.oq := rfl
@[simp] theorem hardReset_dq : s.hardReset.dq = State.reset.dq := rfl
@[simp] theorem hardReset_rdata : s.hardReset.rdata = s.rdata := rfl
@[simp] theorem hardReset_delivered : s.hardReset.delivered = s.delivered := rfl
@[simp] theorem hardReset_input : s.hardReset.input = s.input := rfl
@[simp] theorem hardReset_turns : s.hardReset.turns = s.turns := rfl

/-! `State.timing`: what the decoder reads (42_sync_demod.md R110, R111, R116, R117) -/

@[simp] theorem timing_lineCode : s.timing.lineCode = s.active.lineCode.toNat := rfl
@[simp] theorem timing_sps : s.timing.sps = s.derived.sps.toNat := rfl
@[simp] theorem timing_halfBit : s.timing.halfBit = s.derived.halfBit.toNat := rfl
@[simp] theorem timing_window : s.timing.window = s.derived.syncWindow.toNat := rfl
@[simp] theorem timing_preambleLen : s.timing.preambleLen = s.active.preambleLen.toNat := rfl
@[simp] theorem timing_preambleChips : s.timing.preambleChips = s.active.preambleChips := rfl

end Sys2Proof.Machine
end

