-- ==== Sys2Proof/Laws/Ops.lean ====
section
/-! SUPPORT. For each shared operation, what it can do, said once. -/

namespace Sys2Proof.Machine

/-! Encoding -/

/-- off[1:0] = 0 is divisibility by 4. -/
theorem wordAligned_iff (off : Offset) : wordAligned off = true ↔ off.toNat % 4 = 0 := by
  rw [wordAligned, beq_iff_eq, ← BitVec.toNat_inj]
  simp [BitVec.extractLsb'_toNat]

/-- A word names a command exactly when it is that command's full word (30_encoding.md R67, R68). -/
theorem decodeOp_eq_some_iff (w : Word) (op : CmdOp) : decodeOp w = some op ↔ w = op.word := by
  constructor
  · intro h
    unfold decodeOp at h
    split at h
    next hr =>
      have hp := List.find?_some h
      rw [beq_iff_eq] at hp
      have hw : w = (w.extractLsb' 8 24 ++ w.extractLsb' 0 8 : BitVec 32) := by
        apply BitVec.eq_of_getLsbD_eq
        intro i hi
        rw [BitVec.getLsbD_append, BitVec.getLsbD_extractLsb', BitVec.getLsbD_extractLsb']
        by_cases h8 : i < 8
        · simp [h8]
        · have h2 : i - 8 < 24 := by omega
          have h3 : 8 + (i - 8) = i := by omega
          simp [h8, h2, h3]
      rw [hw, hr, ← hp]
      cases op <;> rfl
    next => cases h
  · rintro rfl
    cases op <;> rfl

/-- A word outside the opcode list names no command (R69). -/
theorem decodeOp_eq_none_iff (w : Word) : decodeOp w = none ↔ w ∉ definedCmdWords := by
  constructor
  · intro h hm
    simp only [definedCmdWords, List.mem_cons, List.not_mem_nil, or_false] at hm
    rcases hm with rfl | rfl | rfl | rfl | rfl | rfl | rfl | rfl | rfl | rfl <;> cases h
  · intro h
    cases hd : decodeOp w with
    | none => rfl
    | some op =>
      have hw := (decodeOp_eq_some_iff w op).1 hd
      subst hw
      exact absurd (by cases op <;> decide) h

/-! Registers -/

/-- The map finds each register at its own offset (30_encoding.md R66). -/
theorem ofOffset_offset (r : Reg) : Reg.ofOffset r.offset = some r := by
  cases r with
  | base b => cases b <;> rfl
  | cnt c => cases c <;> rfl
  | outData i => revert i; decide
  | _ => rfl

/-- A read with the register known. -/
theorem readAt_of_eq {off : Offset} {r : Reg} (h : Reg.ofOffset off = some r) (s : State) :
    readAt off s = readReg r s := by
  rw [readAt, h]

/-- A host read leaves every register as it was (20_memory.md R56). -/
@[simp] theorem readReg_rdata (r : Reg) (v : Word) (s : State) : readReg r { s with rdata := v } = readReg r s := by
  cases r <;> rfl

/-- REG_WRITE changes only the base configuration, IRQ_EN and CTRL (40_host_commands.md R80). -/
theorem writeReg_frame (r : Reg) (v : Word) (s : State) :
    ∃ b e d, writeReg r v s = { s with base := b, irqEn := e, diagEn := d } := by
  cases r <;> exact ⟨_, _, _, rfl⟩

/-- The same for a write by offset. -/
theorem writeAt_frame (off : Offset) (v : Word) (s : State) :
    ∃ b e d, writeAt off v s = { s with base := b, irqEn := e, diagEn := d } := by
  unfold writeAt
  split
  · exact ⟨_, _, _, rfl⟩
  · exact writeReg_frame _ _ _

/-! Configuration -/

/-- The model's check is the conjunction V1 to V13 of R84; V8's lower bound follows from the others. -/
theorem valid_iff_configPasses (b : BaseConfig) : b.valid = true ↔ ConfigPasses b := by
  have hc : 1 ≤ 2 ^ b.lineCode.toNat := Nat.one_le_two_pow
  simp only [BaseConfig.valid, BaseConfig.ratesValid, BaseConfig.decoderValid, BaseConfig.gateValid, ConfigPasses,
    Bool.and_eq_true, decide_eq_true_eq]
  simp only [BaseConfig.rate, BaseConfig.samplesPerSymbol, BaseConfig.halfBitLen, BaseConfig.window,
    BaseConfig.cyclesPerBit, Config.maxBurst, Config.maxPayload, Config.preambleMax]
  have hw : ∀ sps : Nat, 2 ≤ sps → 2 ^ b.lineCode.toNat * sps / 2 ≤ 65536 / 2 →
      (1 ≤ (if b.syncSearch.toNat ≠ 0 then b.syncSearch.toNat else 2 * (2 ^ b.lineCode.toNat * sps / 2))
        ∧ (if b.syncSearch.toNat ≠ 0 then b.syncSearch.toNat else 2 * (2 ^ b.lineCode.toNat * sps / 2)) ≤ 65536
        ↔ b.syncSearch.toNat ≤ 65536) := by
    intro sps h2 hb
    have : 2 ≤ 2 ^ b.lineCode.toNat * sps := le_trans h2 (Nat.le_mul_of_pos_left _ hc)
    split <;> omega
  constructor
  · rintro ⟨⟨⟨⟨⟨⟨⟨⟨⟨h1, h2⟩, h3⟩, h4⟩, h5⟩, h6⟩, h7⟩, h8⟩, ⟨⟨⟨⟨⟨⟨⟨h9, h10⟩, h11⟩, h12⟩, h13⟩, h14⟩, h15⟩, h16⟩⟩, h17⟩
    have := (hw _ h6 h8).1 ⟨h11, h12⟩
    tauto
  · rintro ⟨h1, h2, h3, h4, h5, h6, h7, h8, h9, h10, h11, h12, h13⟩
    have := (hw _ h5.1 h6).2 h8
    tauto

/-- What RECOMPUTE does while halted (R85). -/
theorem latchConfig_cases (s : State) :
    (s.base.valid = true ∧ s.latchConfig = { s with active := s.base, derived := s.base.derive, configOk := true })
      ∨ (s.base.valid = false ∧ s.latchConfig = { s with configErr := true, configOk := false }) := by
  unfold State.latchConfig
  cases h : s.base.valid <;> simp

/-! Counting -/

/-- A saturating increment (10_state.md R40). -/
theorem satInc_eq_saturated (c : Word) : satInc c = saturated c := by
  unfold satInc saturated Config.counterMax
  split
  next h => subst h; rfl
  next h =>
    have h1 : c.toNat ≠ 4294967295 := fun e => h (BitVec.eq_of_toNat_eq e)
    have h2 := c.isLt
    apply BitVec.eq_of_toNat_eq
    rw [BitVec.toNat_ofNat, BitVec.toNat_add]
    simp
    omega

/-- Counting a record changes the counters alone (43_frame_crc_collision.md R142). -/
theorem countRecord_frame (r : Record) (s : State) : ∃ c, s.countRecord r = { s with counters := c } := by
  unfold State.countRecord
  cases r.status <;> cases r.collision <;> exact ⟨_, rfl⟩

/-! The gate -/

/-- The halves of a sample word at the width the spec chooses (30_encoding.md R70; 00_scope.md R9). -/
theorem sampleI_eq (w : Word) : sampleI w = (w.extractLsb' 0 16).toInt := rfl
theorem sampleQ_eq (w : Word) : sampleQ w = (w.extractLsb' 16 16).toInt := rfl

/-- What closing a burst does: discard it and count it, or queue it and count it (41_gate.md R106). -/
theorem closeBurst_cases (e : Index) (f : Bool) (s : State) :
    ((e - s.gate.gStart).toNat < s.active.minLen.toNat ∧ s.closeBurst e f = s.count .tooShort)
      ∨ (s.active.minLen.toNat ≤ (e - s.gate.gStart).toNat
        ∧ ∃ c, s.closeBurst e f =
          { s with
            bq := s.bq ++
              [⟨s.gate.gStart, e, s.gate.gBuf.take (e - s.gate.gStart).toNat, s.gate.gHint, f⟩]
            counters := c }) := by
  unfold State.closeBurst
  by_cases h : (e - s.gate.gStart).toNat < s.active.minLen.toNat
  · left; exact ⟨h, if_pos h⟩
  · right
    refine ⟨Nat.le_of_not_lt h, ?_⟩
    dsimp only
    rw [if_neg h]
    cases f <;> exact ⟨_, rfl⟩

/-- What finalizing does (R106): the gate is idle, and the burst is discarded or queued. -/
theorem finalize_cases (e : Index) (f : Bool) (s : State) :
    ((e - s.gate.gStart).toNat < s.active.minLen.toNat
        ∧ s.finalize e f = { s with gate := Gate.idle, counters := s.counters.bump .tooShort })
      ∨ (s.active.minLen.toNat ≤ (e - s.gate.gStart).toNat
        ∧ ∃ c, s.finalize e f =
          { s with
            gate := Gate.idle
            bq := s.bq ++
              [⟨s.gate.gStart, e, s.gate.gBuf.take (e - s.gate.gStart).toNat, s.gate.gHint, f⟩]
            counters := c }) := by
  unfold State.finalize
  rcases closeBurst_cases e f s with ⟨h, e1⟩ | ⟨h, c, e1⟩
  · left; exact ⟨h, by rw [e1]; rfl⟩
  · right; exact ⟨h, c, by rw [e1]⟩

/-- What an enabled SAMPLE can do (R101): move the noise floor, open a burst, extend it, or finalize one. -/
theorem takeSample_cases (w : Word) (s : State) :
    (s.gate.gst = .searching ∧ triggers s w = false ∧
      s.takeSample w =
        { s with sampleIndex := s.sampleIndex + 1, nf := nfUpdate s.active.nfShift.toNat (mag w) s.nf })
    ∨ (s.gate.gst = .searching ∧ triggers s w = true ∧
      s.takeSample w = { s with sampleIndex := s.sampleIndex + 1 }.openBurst s.sampleIndex w)
    ∨ (s.gate.gst = .accumulating ∧
      s.takeSample w = { s with sampleIndex := s.sampleIndex + 1 }.extendBurst s.sampleIndex w) := by
  unfold State.takeSample
  cases hg : s.gate.gst <;> cases ht : triggers s w <;> simp

/-- Finalizing changes at most the gate, the burst queue and the counters (R106). -/
theorem finalize_frame (e : Index) (f : Bool) (s : State) :
    ∃ q c, s.finalize e f = { s with gate := Gate.idle, bq := q, counters := c } := by
  rcases finalize_cases e f s with ⟨-, h⟩ | ⟨-, c, h⟩
  · exact ⟨_, _, h⟩
  · exact ⟨_, _, h⟩

/-- Opening a burst changes at most the gate, the burst queue and the counters (R101). -/
theorem openBurst_frame (i : Index) (w : Word) (s : State) :
    ∃ g q c, s.openBurst i w = { s with gate := g, bq := q, counters := c } := by
  unfold State.openBurst
  dsimp only
  split
  · obtain ⟨q, c, h⟩ := finalize_frame (i + 1) true { s with gate := ⟨.accumulating, i, [w], 0, s.expect⟩ }
    exact ⟨_, q, c, h⟩
  · exact ⟨_, _, _, rfl⟩

/-- A sample in ACCUMULATING changes at most the gate, the burst queue and the counters (R101). -/
theorem extendBurst_frame (i : Index) (w : Word) (s : State) :
    ∃ g q c, s.extendBurst i w = { s with gate := g, bq := q, counters := c } := by
  unfold State.extendBurst
  dsimp only
  generalize (if quiet s w = true then s.gate.gQuiet + 1 else 0) = n
  split
  · obtain ⟨q, c, h⟩ := finalize_frame (i + 1 - s.active.dwell.setWidth 64) false
      { s with gate := { s.gate with gBuf := s.gate.gBuf ++ [w], gQuiet := n } }
    exact ⟨_, q, c, h⟩
  · split
    · obtain ⟨q, c, h⟩ := finalize_frame (i + 1) true
        { s with gate := { s.gate with gBuf := s.gate.gBuf ++ [w], gQuiet := n } }
      exact ⟨_, q, c, h⟩
    · exact ⟨_, _, _, rfl⟩

/-- An enabled SAMPLE changes at most the gate, the burst queue, the counters, the noise floor and the index (R101). -/
theorem takeSample_frame (w : Word) (s : State) :
    ∃ g q c n, s.takeSample w =
      { s with sampleIndex := s.sampleIndex + 1, gate := g, bq := q, counters := c, nf := n } := by
  rcases takeSample_cases w s with ⟨-, -, h⟩ | ⟨-, -, h⟩ | ⟨-, h⟩
  · exact ⟨_, _, _, _, h⟩
  · obtain ⟨g, q, c, e⟩ := openBurst_frame s.sampleIndex w { s with sampleIndex := s.sampleIndex + 1 }
    exact ⟨g, q, c, _, h.trans e⟩
  · obtain ⟨g, q, c, e⟩ := extendBurst_frame s.sampleIndex w { s with sampleIndex := s.sampleIndex + 1 }
    exact ⟨g, q, c, _, h.trans e⟩

/-! The decoder -/

/-- Two chip sums have one sign exactly when both or neither are below 0: a sum of 0 is positive (42_sync_demod.md R115). -/
theorem sgn_eq_sgn_iff (a b : Int) : sgn a = sgn b ↔ (0 ≤ a ↔ 0 ≤ b) := by
  unfold sgn; split <;> split <;> omega

/-- The bit rules in terms of the signs (R124 to R126). -/
theorem bit_eq (lc : Nat) (d : Decision) :
    d.bit lc = if lc = 0 then decide (0 ≤ d.h1 ↔ 0 ≤ d.h2) else decide ¬(0 ≤ d.h1 ↔ 0 ≤ d.h2) := by
  unfold Decision.bit Decision.midTransition
  simp only [ne_eq, sgn_eq_sgn_iff, decide_not, Bool.not_not]

/-- The candidates are the phases of 42_sync_demod.md R117. -/
theorem mem_candidates (t : Timing) (n tau : Nat) :
    tau ∈ t.candidates n ↔ tau < t.window ∧ tau + t.preambleLen * t.halfBit ≤ n := by
  unfold Timing.candidates
  rw [List.mem_range]
  omega

/-- Copying a burst to the diagnostic queue changes that queue alone (43_frame_crc_collision.md R144). -/
theorem diagCopy_eq (b : Burst) (s : State) :
    s.diagCopy b = { s with dq := if s.diagEn = true then s.dq ++ diagEntries b.samples else s.dq } := by
  unfold State.diagCopy
  split <;> rfl

/-- The diagnostic copy holds one entry for each sample (R144). -/
theorem diagEntries_length : ∀ xs : List Word, (diagEntries xs).length = xs.length
  | [] => rfl
  | [_] => rfl
  | _ :: y :: ys => by simp [diagEntries, diagEntries_length (y :: ys)]

/-- What a DECODE step on the head burst does (R141). -/
theorem decodeBurst_frame (b : Burst) (rest : List Burst) (s : State) :
    ∃ c, s.decodeBurst b rest =
      { s with
        bq := rest
        dq := if s.diagEn = true then s.dq ++ diagEntries b.samples else s.dq
        oq := s.oq ++ [recordOf s.active s.timing b]
        counters := c } := by
  unfold State.decodeBurst
  rw [diagCopy_eq]
  obtain ⟨c, h⟩ := countRecord_frame (recordOf s.active s.timing b)
    { s with
      bq := rest
      dq := if s.diagEn = true then s.dq ++ diagEntries b.samples else s.dq
      oq := s.oq ++ [recordOf s.active s.timing b] }
  exact ⟨c, h⟩

end Sys2Proof.Machine
end

