-- ==== Sys2Proof/Laws/PerInstr.lean ====
section
/-! SUPPORT. A fact about each operation as syntax, one lemma for each constructor. -/

namespace Sys2Proof.Laws

/-- The unit that carries a well-formed operation is inside the interface: if it is a host access, it is a 32-bit access
at a word-aligned offset (20_memory.md R52). -/
def CarriedInsideInterface.Statement (i : Instr) : Prop :=
  i.wf = true → ∀ a : Access, encode i = .bus a → a.size = 4 ∧ wordAligned a.off = true

theorem CarriedInsideInterface.nop : Statement .nop := by intro _ a h; cases h
theorem CarriedInsideInterface.recompute : Statement .recompute := by intro _ a h; cases h
theorem CarriedInsideInterface.start : Statement .start := by intro _ a h; cases h
theorem CarriedInsideInterface.stop : Statement .stop := by intro _ a h; cases h
theorem CarriedInsideInterface.armRn16 : Statement .armRn16 := by intro _ a h; cases h
theorem CarriedInsideInterface.armEpc : Statement .armEpc := by intro _ a h; cases h
theorem CarriedInsideInterface.disarm : Statement .disarm := by intro _ a h; cases h
theorem CarriedInsideInterface.pop : Statement .pop := by intro _ a h; cases h
theorem CarriedInsideInterface.clearCounters : Statement .clearCounters := by intro _ a h; cases h
theorem CarriedInsideInterface.softReset : Statement .softReset := by intro _ a h; cases h
theorem CarriedInsideInterface.cmdReserved (w : Word) : Statement (.cmdReserved w) := by intro _ a h; cases h
theorem CarriedInsideInterface.regRead (off : Offset) : Statement (.regRead off) := by
  intro hw a h; cases h; exact ⟨rfl, hw⟩
theorem CarriedInsideInterface.regWrite (off : Offset) (v : Word) : Statement (.regWrite off v) := by
  intro hw a h; cases h; exact ⟨rfl, (Bool.and_eq_true_iff.1 hw).1⟩
theorem CarriedInsideInterface.statusW1c (v : Word) : Statement (.statusW1c v) := by
  intro _ a h; cases h; exact ⟨rfl, show wordAligned 0x008#12 = true by decide⟩
theorem CarriedInsideInterface.cmdWrite (v : Word) : Statement (.cmdWrite v) := by
  intro _ a h; cases h; exact ⟨rfl, show wordAligned 0x00C#12 = true by decide⟩
theorem CarriedInsideInterface.noiseFloorWrite (v : Word) : Statement (.noiseFloorWrite v) := by
  intro _ a h; cases h; exact ⟨rfl, show wordAligned 0x090#12 = true by decide⟩
theorem CarriedInsideInterface.sample (w : Word) : Statement (.sample w) := by intro _ a h; cases h
theorem CarriedInsideInterface.decode : Statement .decode := by intro _ a h; cases h
theorem CarriedInsideInterface.diagDrain : Statement .diagDrain := by intro _ a h; cases h

end Sys2Proof.Laws
end

