-- ==== Sys2Proof/Machine/HostProgram.lean ====
section
/-! DEFINITION. Host programs in the syntax of 30_encoding.md R78: what each line asks of the agents, and running it. -/

namespace Sys2Proof.Machine

/-- A line of a host program (R78). `cmd`, `clr` and the `smp` forms are the spec's abbreviations. -/
inductive HostOp where
  | wr (r : Reg) (v : Word)
  | rd (r : Reg)
  | cmd (op : CmdOp)
  | clr (v : Word)
  | smp (w : Word)
  | smpRep (n : Nat) (w : Word)
  | smpChips (chips : List Bool) (plus minus : Word)
  | smpIq (i q : BitVec Config.sampleWidth)
  | run
  deriving DecidableEq, Repr

/-- The samples a line presents, in order (R78). `run` and the register accesses present none. -/
def HostOp.samples : HostOp → List Word
  | .smp w => [w]
  | .smpRep n w => List.replicate n w
  | .smpChips chips plus minus => chips.map (fun c => if c then plus else minus)
  | .smpIq i q => [(q ++ i : BitVec 32)]
  | .wr _ _ | .rd _ | .cmd _ | .clr _ | .run => []

/-- The host accesses a line issues, in order (R78). -/
def HostOp.accesses : HostOp → List Access
  | .wr r v => [Access.wr r.offset v]
  | .rd r => [Access.rd r.offset]
  | .cmd op => [Access.wr Reg.cmd.offset op.word]
  | .clr v => [Access.wr Reg.status.offset v]
  | .smp _ | .smpRep _ _ | .smpChips _ _ _ | .smpIq _ _ | .run => []

/-- `run`: the decoder and the sink take steps until none is enabled (R78). The decoder goes first where both could go;
the fuel bounds the steps (log entry 12). -/
def runAgents : Nat → State → State
  | 0, s => s
  | fuel + 1, s =>
    match s.bq, s.dq with
    | b :: rest, _ =>
      if decodeEnabled s then runAgents fuel (s.decodeBurst b rest)
      else match s.dq with
        | [] => s
        | e :: es => runAgents fuel { s with dq := es, delivered := s.delivered ++ [e] }
    | [], e :: es => runAgents fuel { s with dq := es, delivered := s.delivered ++ [e] }
    | [], [] => s

/-- Enough fuel for `run`: a step for each queued burst, each queued entry and each entry a queued burst can add. -/
def runFuel (s : State) : Nat := s.bq.length + s.dq.length + (s.bq.map (fun b => b.samples.length)).sum

/-- A line put before the agents: its accesses and samples take the next turns, in order. -/
def HostOp.schedule (op : HostOp) (s : State) : State :=
  { s with
    turns := op.accesses.map .host ++ op.samples.map (fun _ => .source) ++ s.turns
    input := op.samples ++ s.input }

end Sys2Proof.Machine
end

