-- ==== Sys2Proof/Tests/Slice0.lean ====
section
/-! SUPPORT. Tests, with their expected values from spec/95_test_vectors.md and the rules' own examples, and a witness
for the hypotheses of each statement. -/

namespace Sys2Proof.Tests

open Sys2Proof.Machine

/-! Terms that are no operation (WellFormed) -/

theorem test_wf_refuses_defined_reserved : (Instr.cmdReserved 0x000000A5).wf = false := by decide
theorem test_wf_refuses_unaligned_read : (Instr.regRead 0x002).wf = false := by decide
theorem test_wf_refuses_unaligned_write : (Instr.regWrite 0x061 9).wf = false := by decide
theorem test_wf_refuses_status_as_regWrite : (Instr.regWrite 0x008 4).wf = false := by decide
theorem test_wf_refuses_cmd_as_regWrite : (Instr.regWrite 0x00C 1).wf = false := by decide
theorem test_wf_refuses_noise_floor_as_regWrite : (Instr.regWrite 0x090 1).wf = false := by decide
theorem test_wf_accepts_reserved : (Instr.cmdReserved 0x00000100).wf = true := by decide

/-! Words written out from 30_encoding.md R65, R67, R68, R70: RSVD in bits 31:8 and OP in bits 7:0 of a CMD word; the
register map's offsets of a BUS access -/

theorem test_decode_nop : decode (.cmd (0x000000#24 ++ 0x00#8)) = .ok .nop := by decide
theorem test_decode_recompute : decode (.cmd (0x000000#24 ++ 0x01#8)) = .ok .recompute := by decide
theorem test_decode_start : decode (.cmd (0x000000#24 ++ 0x02#8)) = .ok .start := by decide
theorem test_decode_stop : decode (.cmd (0x000000#24 ++ 0x03#8)) = .ok .stop := by decide
theorem test_decode_armRn16 : decode (.cmd (0x000000#24 ++ 0x04#8)) = .ok .armRn16 := by decide
theorem test_decode_armEpc : decode (.cmd (0x000000#24 ++ 0x05#8)) = .ok .armEpc := by decide
theorem test_decode_disarm : decode (.cmd (0x000000#24 ++ 0x06#8)) = .ok .disarm := by decide
theorem test_decode_pop : decode (.cmd (0x000000#24 ++ 0x07#8)) = .ok .pop := by decide
theorem test_decode_clearCounters : decode (.cmd (0x000000#24 ++ 0x08#8)) = .ok .clearCounters := by decide
theorem test_decode_softReset : decode (.cmd (0x000000#24 ++ 0xA5#8)) = .ok .softReset := by decide
theorem test_decode_reserved_op : decode (.cmd 0x00000042) = .ok (.cmdReserved 0x00000042) := by decide
theorem test_decode_reserved_rsvd : decode (.cmd (0x000001#24 ++ 0x00#8)) = .ok (.cmdReserved 0x00000100) := by decide
theorem test_decode_regRead : decode (.bus ⟨.read, 4, 0x120, 0⟩) = .ok (.regRead 0x120) := by decide
theorem test_decode_regWrite : decode (.bus ⟨.write, 4, 0x028, 40000⟩) = .ok (.regWrite 0x028 40000) := by decide
theorem test_decode_statusW1c : decode (.bus ⟨.write, 4, 0x008, 0x8⟩) = .ok (.statusW1c 0x8) := by decide
theorem test_decode_cmdWrite : decode (.bus ⟨.write, 4, 0x00C, 0x7⟩) = .ok (.cmdWrite 0x7) := by decide
theorem test_decode_noiseFloorWrite : decode (.bus ⟨.write, 4, 0x090, 100⟩) = .ok (.noiseFloorWrite 100) := by decide
theorem test_decode_sample : decode (.sample (0x0002#16 ++ 0x0024#16)) = .ok (.sample 0x00020024) := by decide
theorem test_decode_decode : decode .decodeStep = .ok .decode := by decide
theorem test_decode_diagDrain : decode .diagStep = .ok .diagDrain := by decide
theorem test_decode_refuses_byte_access : decode (.bus ⟨.write, 1, 0x028, 1⟩) = .error (.accessSize 1) := by decide
theorem test_decode_refuses_unaligned : decode (.bus ⟨.read, 4, 0xFFE, 0⟩) = .error (.unaligned 0xFFE) := by decide
theorem test_table_word_cmd : decodeTableWord 32 0xA5 = some .softReset := by decide
theorem test_table_word_status : decodeTableWord 16 0x008 = some (.statusW1c 0) := by decide
theorem test_table_word_decode : decodeTableWord 0 0 = some .decode := by decide

/-! The test configurations of 95_test_vectors.md section 0 -/

/-- The base registers of TC. -/
def tcBase : BaseConfig :=
  { BaseConfig.reset with
    adcRate := 2000000
    decim := 25
    blf := 40000
    preambleChips := 0xD2300000
    preambleLen := 12
    enterBias := 1000
    exitBias := 500
    dwell := 4
    minLen := 8
    maxLen := 1024 }

/-- TC as the host leaves it before RECOMPUTE. -/
def written : State := { State.reset with base := tcBase }

/-- TC: latched, halted, noise floor 100. -/
def tc : State :=
  { written with active := tcBase, derived := ⟨80000, 2, 1, 2⟩, configOk := true, nf := 100 }

/-- TC, running, with RN16 expected. -/
def live : State := { tc with running := true, expect := .rn16 }

/-- TC-G, running: thresholds 1300 and 676. -/
def liveG : State := { live with active := { tcBase with enterBias := 900, exitBias := 476 } }

/-- `live` with other lengths in its active configuration. -/
def liveLen (dwell minLen maxLen : Word) : State :=
  { live with active := { tcBase with dwell := dwell, minLen := minLen, maxLen := maxLen } }

/-- A state whose gate holds `n` loud samples and then `q` quiet ones, from index 0. -/
def gathered (s : State) (n q : Nat) : State :=
  { s with
    sampleIndex := BitVec.ofNat 64 (n + q)
    gate := ⟨.accumulating, 0, List.replicate n 0x64 ++ List.replicate q 0x0A, q, .rn16⟩ }

/-- The state after an operation, `none` if there is no next state. -/
def nextOf (o : Host.Outcome State Fault Refusal) : Option State :=
  match o with
  | .next s => some s
  | .fault _ => none
  | .refused _ => none

/-- What a host read of an offset returns. -/
def readOf (off : Offset) (s : State) : Option Word := (nextOf (exec (.regRead off) s)).map State.rdata

/-- A view of the state after an operation. -/
def see {α : Type} (f : State → α) (i : Instr) (s : State) : Option α := (nextOf (exec i s)).map f

/-- A chip string of samples: HI for `+`, LO for `-`. -/
def chips (s : String) : List Word := s.toList.map (fun c => if c = '+' then 0x64 else 0x28)

/-- RN16-F: the FM0 preamble, then 0xABCD, its CRC and a dummy 1 (95_test_vectors.md section 0). -/
def rn16F : List Word :=
  chips "++-+--+---++--+-++-+--+-++--++--+-+-++--+-++-+-+--+-++-+--++--+-+-++-+--+-++--"

/-- RN16-M: the same in Miller-2, 172 samples. -/
def rn16M : List Word :=
  chips "+-+--+-++-+--+-++-+-+--+-+-+-++-+--+-++-+--+-+-+-++-+-+-+--+-+-+-++-+--+-++-+--+-+-++-"
    ++ chips "+-+--+-++-+-+-+--+-+-++-+-+--+-+-+-++-+-+-+--+-++-+--+-+-++-+-+--+-+-+-++-+-+-+--+-++-"

/-- The active configuration of TC-M. -/
def tcmBase : BaseConfig := { tcBase with lineCode := 1, preambleChips := 0xCCE19000, preambleLen := 20 }

/-- The decoder's timing under TC. -/
def timingF : Timing := ⟨0, 2, 1, 2, 12, 0xD2300000⟩

/-- The same under TC-M. -/
def timingM : Timing := ⟨1, 2, 2, 4, 20, 0xCCE19000⟩

/-- The burst of program P1: RN16-F after five noise samples. -/
def burstF : Burst := ⟨5, 83, rn16F, .rn16, false⟩

/-- A burst too short for a candidate phase. -/
def burstTiny : Burst := ⟨0, 8, List.replicate 8 0x64, .rn16, false⟩

/-! One step of each operation, against 95_test_vectors.md sections 2 to 8 and the rules' examples -/

theorem test_reset_status : readOf 0x008 State.reset = some 0x00000000 := by decide
theorem test_nop : exec .nop live = .next live := rfl
theorem test_recompute_example :
    nextOf (exec .recompute written)
      = some { written with active := tcBase, derived := ⟨80000, 2, 1, 2⟩, configOk := true } := by decide +kernel
theorem test_recompute_at_reset :
    nextOf (exec .recompute State.reset) = some { State.reset with configErr := true } := by decide +kernel
theorem test_start_status : (see statusWord .start tc) = some 0x00000003 := by decide
theorem test_start_before_config : see State.cmdErr .start State.reset = some true := by decide
theorem test_stop_discards : see statusWord .stop (gathered live 10 2) = some 0x00010002 := by decide
theorem test_armRn16_status : see statusWord .armRn16 tc = some 0x00010002 := by decide
theorem test_armEpc_status : see statusWord .armEpc tc = some 0x00020002 := by decide
theorem test_disarm_status : see statusWord .disarm live = some 0x00000003 := by decide
theorem test_pop_empty : see statusWord .pop tc = some 0x0000000A := by decide
theorem test_clearCounters_saturated :
    see (fun s => s.counters.bursts) .clearCounters
      { live with counters := { Counters.zero with bursts := 0xFFFFFFFF } } = some 0 := by decide
theorem test_softReset_keeps_config : see statusWord .softReset (gathered live 10 2) = some 0x00000002 := by decide
theorem test_reserved_status : see statusWord (.cmdReserved 0x42) tc = some 0x0000000A := by decide
theorem test_read_enter_threshold : readOf 0x094 tc = some 1400 := by decide
theorem test_read_reserved_offset : readOf 0x09C tc = some 0 := by decide
theorem test_write_lineCode_drops_bits : see (readAt 0x02C) (.regWrite 0x02C 0x1FF) State.reset = some 3 := by decide
theorem test_write_id_ignored : see (readAt 0x000) (.regWrite 0x000 5) State.reset = some 0x47325258 := by decide
theorem test_statusW1c_example :
    see (fun s => (s.configErr, s.cmdErr)) (.statusW1c 0x4) { tc with configErr := true, cmdErr := true }
      = some (false, true) := by decide
theorem test_cmdWrite_reserved_example : see statusWord (.cmdWrite 0x42) tc = some 0x0000000A := by decide
theorem test_cmdWrite_start : nextOf (exec (.cmdWrite 0x2) tc) = some { tc with running := true } := by decide
theorem test_noise_floor_example :
    see (readAt 0x094) (.noiseFloorWrite 100) State.reset = some 401 := by decide
theorem test_noise_floor_running :
    see (fun s => (s.nf, s.cmdErr)) (.noiseFloorWrite 5) live = some (100, true) := by decide
/-- G-1: the enter threshold itself does not trigger. G-2: one above it does. -/
theorem test_sample_G1_G2 :
    see (fun s => (s.nf, s.sampleIndex, enterThr s, exitThr s)) (.sample 0x00020024) liveG = some (175, 1, 1600, 826)
      ∧ see (fun s => (s.nf, statusWord s)) (.sample 0x00030024) liveG = some (100, 0x00010083) := by decide
/-- The record of program P1: S-1 and X2. -/
theorem test_decode_P1 :
    see (fun s => [readAt 0x100 s, readAt 0x140 s, readAt 0x114 s, readAt 0x118 s, readAt 0x11C s, readAt 0x120 s])
      .decode { live with bq := [burstF] }
      = some [0x00100451, 0xABCD0000, 0x2B952B95, 0, 0, 256] := by decide +kernel
/-- S-11, in Miller-2. -/
theorem test_decode_S11 :
    (recordOf tcmBase timingM ⟨5, 177, rn16M, .rn16, false⟩).hdrWord = 0x00100451 := by decide +kernel
theorem test_diagDrain_while_halted :
    see (fun s => (s.dq, s.delivered)) .diagDrain { tc with dq := [⟨1, false⟩, ⟨2, true⟩] }
      = some ([⟨2, true⟩], [⟨1, false⟩]) := by decide
theorem test_diagDrain_empty : exec .diagDrain tc = .next tc := rfl

/-! Running from reset, and the interface's fetch -/

theorem test_fetch_runs_cmd : nextOf (step (State.reset.withFetchWord 32 0x04))
    = nextOf (exec .armRn16 State.reset) := by decide
theorem test_fetch_runs_decode : nextOf (step (State.reset.withFetchWord 0 0)) = some State.reset := by decide
theorem test_host_program_line : (HostOp.cmd .start).accesses = [⟨.write, 4, 0x00C, 0x00000002⟩] := by decide

/-! Witnesses: for each statement with hypotheses, a state and operands that meet them together, a witness for each
clause, at the boundary of its range where it has one -/

/-- A record of a frame, at the head of the FIFO in the witnesses. -/
def someRecord : Record := { emptyRecord burstF .frameOk with kind := .rn16, crcValid := true, payloadLen := 16 }

theorem witness_RecomputeChecksAndLatches_running : live.running = true := rfl
theorem witness_RecomputeChecksAndLatches_passes : written.running = false ∧ ConfigPasses written.base := by
  unfold ConfigPasses; decide +kernel
theorem witness_RecomputeChecksAndLatches_fails : State.reset.running = false ∧ ¬ ConfigPasses State.reset.base := by
  unfold ConfigPasses; decide +kernel
/-- The largest lengths, window and threshold that pass, and the smallest that do not. -/
theorem witness_configPasses_bounds :
    ConfigPasses { tcBase with dwell := 65536, maxLen := 65536, minLen := 65536, syncSearch := 65536, syncThr := 256,
                               epcBits := 512, preambleLen := 32 }
      ∧ ¬ ConfigPasses { tcBase with dwell := 65537 } ∧ ¬ ConfigPasses { tcBase with maxLen := 65537 }
      ∧ ¬ ConfigPasses { tcBase with minLen := 0 } ∧ ¬ ConfigPasses { tcBase with syncSearch := 65537 }
      ∧ ¬ ConfigPasses { tcBase with syncThr := 257 } ∧ ¬ ConfigPasses { tcBase with epcBits := 528 }
      ∧ ¬ ConfigPasses { tcBase with preambleLen := 33 } := by
  simp only [← valid_iff_configPasses]; decide +kernel
theorem witness_StartRunsOrIsRefused_runs : tc.running = false ∧ tc.configOk = true := ⟨rfl, rfl⟩
theorem witness_StartRunsOrIsRefused_refused :
    (live.running = true ∨ live.configOk = false) ∧ (written.running = true ∨ written.configOk = false) := by decide
theorem witness_StopFlushesInFlightWork : live.running = true ∧ tc.running = false := ⟨rfl, rfl⟩
theorem witness_PopRemovesHeadRecord :
    { tc with oq := [someRecord] }.oq = someRecord :: [] ∧ tc.oq = [] := ⟨rfl, rfl⟩
theorem witness_ReservedCommandOnlySetsCmdErr :
    0x00000009 ∉ definedCmdWords ∧ 0x00000100 ∉ definedCmdWords ∧ 0xFFFFFFFF ∉ definedCmdWords := by decide
theorem witness_CmdWriteRunsTheNamedCommand : 0x000000A4 ∉ definedCmdWords ∧ 0x000000A6 ∉ definedCmdWords := by decide
theorem witness_RegReadReturnsRegisterWithoutSideEffect :
    (0x000#12).toNat % 4 = 0 ∧ (0xFFC#12).toNat % 4 = 0 ∧ (0x000, 0x47325258) ∈ configReads tc.base ++ liveReads tc
      ∧ (0x074, 1) ∈ configReads tc.base ++ liveReads tc ∧ (0x0D0, 0) ∈ configReads tc.base ++ liveReads tc := by decide
theorem witness_StatusReadFields :
    { live with bq := [burstF, burstTiny] }.bq.length ≤ 2
      ∧ { live with oq := [someRecord, someRecord, someRecord, someRecord] }.oq.length ≤ 4 := by decide
theorem witness_ControlThresholdAndBurstStartReads :
    tc.gate.gst = .searching ∧ (gathered live 10 2).gate.gst = .accumulating := ⟨rfl, rfl⟩
theorem witness_ReservedOffsetsReadZeroIgnoreWrites :
    (∀ off ∈ ([0x018, 0x01C, 0x078, 0x07C, 0x0D4, 0x0FC, 0x124, 0x13C, 0x180, 0xFFC] : List Offset),
        off.toNat % 4 = 0 ∧ ReservedOffset off)
      ∧ (0x000#12 ∈ readOnlyOffsets ∧ 0x17C#12 ∈ readOnlyOffsets) := by
  simp [ReservedOffset, readOnlyOffsets]
theorem witness_OutputWindowShowsHeadRecord :
    ((0x100#12).toNat % 4 = 0 ∧ (0x17C#12).toNat % 4 = 0 ∧ 0x100 ≤ (0x100#12).toNat ∧ (0x17C#12).toNat ≤ 0x17C
        ∧ tc.oq = [])
      ∧ { tc with oq := [someRecord] }.oq = someRecord :: [] ∧ someRecord.valid = true :=
  ⟨by decide, rfl, rfl⟩
theorem witness_OutDataHoldsPayloadMsbFirst :
    let r := { someRecord with payload := packPayload (List.replicate 512 true) }
    { tc with oq := [r] }.oq = r :: [] ∧ r.payload = packPayload (List.replicate 512 true)
      ∧ (List.replicate 512 true).length ≤ 512 ∧ 0 < 512 ∧ 511 < 512 :=
  ⟨rfl, rfl, by rw [List.length_replicate], by decide, by decide⟩
theorem witness_ConfigWriteStoresField :
    (0x020#12, 32) ∈ configFields ∧ (0x074#12, 16) ∈ configFields ∧ 0x074#12 ≠ 0x020#12
      ∧ (0x074, 1) ∈ configReads tc.base := by decide
theorem witness_RegWriteElsewhere :
    (0x010#12).toNat % 4 = 0 ∧ (0x014#12).toNat % 4 = 0
      ∧ ∀ off ∈ ([0x000, 0x018, 0x078, 0x080, 0x09C, 0x094, 0xFFC] : List Offset),
          off.toNat % 4 = 0 ∧ off ∉ [0x008#12, 0x00C#12, 0x010#12, 0x014#12, 0x090#12]
            ∧ off ∉ configFields.map Prod.fst := by
  simp [configFields]
theorem witness_NoiseFloorWriteOnlyWhileHalted : tc.running = false ∧ live.running = true := ⟨rfl, rfl⟩
theorem witness_AccessOutsideInterfaceRefused :
    { tc with turns := [.host ⟨.read, 8, 0x000, 0⟩] }.turns = .host ⟨.read, 8, 0x000, 0⟩ :: []
      ∧ (8 ≠ 4 ∨ (0x000#12).toNat % 4 ≠ 0) ∧ (4 ≠ 4 ∨ (0x003#12).toNat % 4 ≠ 0) := ⟨rfl, by decide, by decide⟩
theorem witness_EnterThresholdAboveExit : ConfigPasses live.active ∧ triggers live 0x64 = true := by
  unfold ConfigPasses; decide +kernel
/-- At the threshold itself (G-1). -/
theorem witness_QuietSearchingSampleMovesNoiseFloor :
    liveG.running = true ∧ liveG.bq.length ≠ 2 ∧ liveG.gate.gst = .searching ∧ ¬ AboveEnter liveG 0x00020024
      ∧ liveG.nf.toNat ≤ 2 ^ 31 := by
  unfold AboveEnter; decide
/-- Just above the threshold (G-2), and at MAX_LEN = 1 (G-10) with MIN_LEN = 1 and with MIN_LEN = 2. -/
theorem witness_RisingEdgeOpensBurst :
    (liveG.running = true ∧ liveG.bq.length ≠ 2 ∧ liveG.gate.gst = .searching ∧ AboveEnter liveG 0x00030024
        ∧ liveG.active.maxLen.toNat ≠ 1)
      ∧ ((liveLen 4 1 1).running = true ∧ (liveLen 4 1 1).bq.length ≠ 2 ∧ (liveLen 4 1 1).gate.gst = .searching
        ∧ AboveEnter (liveLen 4 1 1) 0x64 ∧ (liveLen 4 1 1).active.maxLen.toNat = 1
        ∧ (liveLen 4 1 1).active.minLen.toNat ≤ 1)
      ∧ AboveEnter (liveLen 4 2 1) 0x64 ∧ (liveLen 4 2 1).active.maxLen.toNat = 1
      ∧ 1 < (liveLen 4 2 1).active.minLen.toNat ∧ (liveLen 4 2 1).running = true ∧ (liveLen 4 2 1).bq.length ≠ 2
      ∧ (liveLen 4 2 1).gate.gst = .searching := by
  unfold AboveEnter; decide
/-- One quiet sample short of the dwell, and a loud sample one short of MAX_LEN. -/
theorem witness_SampleInsideBurstAccumulates :
    (quietCount (gathered live 10 2) 0x0A ≠ (gathered live 10 2).active.dwell.toNat
        ∧ (gathered live 10 2).gate.gBuf.length + 1 ≠ (gathered live 10 2).active.maxLen.toNat)
      ∧ quietCount (gathered (liveLen 4 8 13) 10 1) 0x64 ≠ (gathered (liveLen 4 8 13) 10 1).active.dwell.toNat
      ∧ (gathered (liveLen 4 8 13) 10 1).gate.gBuf.length + 1 ≠ (gathered (liveLen 4 8 13) 10 1).active.maxLen.toNat
      ∧ (gathered live 10 2).running = true ∧ (gathered live 10 2).bq.length ≠ 2
      ∧ (gathered live 10 2).gate.gst = .accumulating := by decide
/-- At MIN_LEN exactly (G-6), and where the dwell and MAX_LEN meet (G-9). -/
theorem witness_DwellEndsBurst :
    let s := gathered live 8 3
    let u := gathered (liveLen 4 8 12) 8 3
    (s.running = true ∧ s.bq.length ≠ 2 ∧ s.gate.gst = .accumulating ∧ quietCount s 0x0A = s.active.dwell.toNat
        ∧ s.active.minLen.toNat ≤ (s.sampleIndex + 1 - s.active.dwell.setWidth 64 - s.gate.gStart).toNat)
      ∧ quietCount u 0x0A = u.active.dwell.toNat ∧ u.gate.gBuf.length + 1 = u.active.maxLen.toNat
      ∧ u.active.minLen.toNat ≤ (u.sampleIndex + 1 - u.active.dwell.setWidth 64 - u.gate.gStart).toNat
      ∧ u.running = true ∧ u.bq.length ≠ 2 ∧ u.gate.gst = .accumulating := by decide
/-- At MAX_LEN with quiet samples at the tail. -/
theorem witness_MaxLenForcesBurst :
    let s := gathered (liveLen 4 8 12) 9 2
    s.running = true ∧ s.bq.length ≠ 2 ∧ s.gate.gst = .accumulating ∧ quietCount s 0x0A ≠ s.active.dwell.toNat
      ∧ s.gate.gBuf.length + 1 = s.active.maxLen.toNat
      ∧ s.active.minLen.toNat ≤ (s.sampleIndex + 1 - s.gate.gStart).toNat := by decide
/-- One below MIN_LEN at the dwell (G-7), and at a MAX_LEN below MIN_LEN. -/
theorem witness_ShortBurstIsDiscarded :
    let s := gathered live 7 3
    let u := gathered (liveLen 4 8 7) 6 0
    (s.running = true ∧ s.bq.length ≠ 2 ∧ s.gate.gst = .accumulating ∧ quietCount s 0x0A = s.active.dwell.toNat
        ∧ (s.sampleIndex + 1 - s.active.dwell.setWidth 64 - s.gate.gStart).toNat < s.active.minLen.toNat)
      ∧ u.running = true ∧ u.bq.length ≠ 2 ∧ u.gate.gst = .accumulating ∧ quietCount u 0x64 ≠ u.active.dwell.toNat
      ∧ u.gate.gBuf.length + 1 = u.active.maxLen.toNat
      ∧ (u.sampleIndex + 1 - u.gate.gStart).toNat < u.active.minLen.toNat := by decide
theorem witness_DisabledStepsWait :
    tc.running = false ∧ { live with bq := [burstTiny, burstTiny] }.bq.length = 2
      ∧ { live with turns := [.source] , bq := [burstTiny, burstTiny] }.turns = .source :: [] ∧ live.bq = []
      ∧ 4 ≤ { live with oq := [someRecord, someRecord, someRecord, someRecord] }.oq.length ∧ live.dq = [] := by decide
/-- A queue with one entry too many for the burst. -/
theorem witness_DisabledStepsWait_diag :
    { live with diagEn := true, bq := [burstTiny], dq := List.replicate 65529 ⟨0, false⟩ }.diagEn = true
      ∧ 65536 < (List.replicate 65529 (⟨0, false⟩ : DiagEntry)).length + burstTiny.samples.length := by
  constructor
  · rfl
  · rw [List.length_replicate]; decide
theorem loud_above {n : Nat} {d a b : Word} (w : Word) (h : w ∈ List.replicate n (0x64 : Word)) :
    AboveEnter (liveLen d a b) w := by
  rw [List.eq_of_mem_replicate h]; change (100#32).toNat * (0x400#16).toNat / 256 + (1000#32).toNat < mag 0x64; decide

theorem quiet_below {n : Nat} {d a b : Word} (w : Word) (h : w ∈ List.replicate n (0x0A : Word)) :
    AtOrBelowExit (liveLen d a b) w := by
  rw [List.eq_of_mem_replicate h]; change mag 0x0A ≤ (100#32).toNat * (0x200#16).toNat / 256 + (500#32).toNat; decide

/-- MIN_LEN samples and MAX_LEN = N + DWELL (G-6, G-9), and one sample fewer (G-7). -/
theorem witness_EnvelopeGivesExactlyItsBurst :
    let s := liveLen 4 8 12
    (s.running = true ∧ s.bq.length < 2 ∧ s.gate = Gate.idle ∧ ConfigPasses s.active)
      ∧ (∀ w ∈ List.replicate 8 (0x64 : Word), AboveEnter s w)
      ∧ (List.replicate 4 (0x0A : Word)).length = s.active.dwell.toNat
      ∧ (∀ w ∈ List.replicate 4 (0x0A : Word), AtOrBelowExit s w)
      ∧ (List.replicate 8 (0x64 : Word)).length + s.active.dwell.toNat ≤ s.active.maxLen.toNat
      ∧ s.active.minLen.toNat ≤ (List.replicate 8 (0x64 : Word)).length
      ∧ (List.replicate 7 (0x64 : Word)).length < s.active.minLen.toNat :=
  ⟨⟨rfl, by decide, rfl, (valid_iff_configPasses _).1 (by decide +kernel)⟩, fun w hw => loud_above w hw, by decide,
    fun w hw => quiet_below w hw, by decide, by decide, by decide⟩
/-- MAX_LEN reached inside the dwell: the hypotheses of R108 as written hold. -/
theorem witness_EnvelopeLengthIsExactUpToMaxLen :
    let s := liveLen 4 8 10
    (s.running = true ∧ s.bq.length < 2 ∧ s.gate = Gate.idle ∧ ConfigPasses s.active)
      ∧ (∀ w ∈ List.replicate 8 (0x64 : Word), AboveEnter s w)
      ∧ s.active.dwell.toNat ≤ (List.replicate 4 (0x0A : Word)).length
      ∧ (∀ w ∈ List.replicate 4 (0x0A : Word), AtOrBelowExit s w)
      ∧ s.active.minLen.toNat ≤ (List.replicate 8 (0x64 : Word)).length
      ∧ (List.replicate 8 (0x64 : Word)).length ≤ s.active.maxLen.toNat :=
  ⟨⟨rfl, by decide, rfl, (valid_iff_configPasses _).1 (by decide +kernel)⟩, fun w hw => loud_above w hw, by decide,
    fun w hw => quiet_below w hw, by decide, by decide⟩
/-- Eight loud samples, a quiet one and then this one: the burst has ten samples, not eight (log entry 13). -/
theorem test_forced_inside_dwell :
    see (fun s => s.bq.map (fun b => (b.samples.length, b.forced))) (.sample 0x0A) (gathered (liveLen 4 8 10) 8 1)
      = some [(10, true)] := by decide
theorem witness_GateIgnoresExpectationAndDecoder :
    SameForGate live { live with expect := .epc, active := { tcBase with lineCode := 3, epcBits := 16, syncThr := 0 } } := by
  constructor <;> decide
theorem witness_ChipSumsOfDemodSignal :
    rn16F[77]? = some 0x28 ∧ 77 + timingF.halfBit ≤ (demodSignal rn16F).length := by decide +kernel
theorem witness_CorrelationBoundedByAmplitude : ({ timingF with preambleLen := 32 } : Timing).preambleLen ≤ 32 := by decide
/-- S-1, S-7 and the tie of S-4. -/
theorem witness_SyncPicksFirstLargestPeak :
    timingF.findPeak (demodSignal rn16F) = some ⟨0, 50400, 50400⟩
      ∧ timingF.findPeak (demodSignal burstTiny.samples) = none
      ∧ timingF.findPeak (demodSignal (chips "+-" ++ rn16F)) = some ⟨0, -8400, 50190⟩ := by decide +kernel
theorem witness_InvertedSignalDecodesAlike :
    let a : Decision := ⟨-4092, -4092⟩
    let b : Decision := ⟨4308, -4092⟩
    a.h1 ≠ 0 ∧ a.h2 ≠ 0 ∧ b.h1 ≠ 0 ∧ b.h2 ≠ 0 := by decide
theorem witness_LineCodeSignalDecodesToItsBits :
    0 < timingF.halfBit ∧ 0 < timingM.halfBit ∧ (0 : Int) < 4200 ∧ ((-1 : Int) = 1 ∨ (-1 : Int) = -1)
      ∧ ((4200 : Nat) : Int) ≤ 4200 * timingF.halfBit := by decide

/-- The 16 bits of a word, first bit first. -/
def bits16 (x : BitVec 16) : List Bool := List.ofFn fun i : Fin 16 => x.getMsbD i

/-- The rest of R129: mean 5692, the peak at phase 0 with quality 256, d0 = 12, and the 32 decided bits. -/
theorem test_R129 :
    (rn16F.map mag).sum / 78 = 5692 ∧ timingF.findPeak (demodSignal rn16F) = some ⟨0, 50400, 50400⟩
      ∧ Peak.quality ⟨0, 50400, 50400⟩ = 256 ∧ timingF.dataStart ⟨0, 50400, 50400⟩ = 12
      ∧ (timingF.decisions (demodSignal rn16F) 12 32).map (Decision.bit 0) = bits16 0xABCD ++ bits16 0x2B95 := by
  decide +kernel

/-- S-12 in FM0 and S-11 in Miller-2: both bursts have mean 5800, so their signals are at ±4200. -/
theorem witness_CleanReplyDecodesToItsPayload_fm0 :
    timingF.lineCode = tcBase.lineCode.toNat ∧ 0 < timingF.halfBit ∧ 0 < timingF.window ∧ 0 < timingF.preambleLen
      ∧ timingF.preambleLen ≤ 32 ∧ tcBase.syncThr.toNat ≤ 256 ∧ (0 : Int) < 4200 ∧ burstF.hint ≠ .none
      ∧ (bits16 0xABCD).length = (payloadBits tcBase.epcBits burstF.hint).toNat
      ∧ demodSignal (rn16F.take 76)
          = levelsSignal timingF 4200
              ((List.range timingF.preambleLen).map timingF.preambleChip
                ++ lineLevels timingF.lineCode 1 true
                  (bits16 0xABCD
                    ++ bits16 (crc tcBase.crcPoly tcBase.crcInit tcBase.crcXorout (bits16 0xABCD))))
            ++ [] := by decide +kernel
theorem witness_CleanReplyDecodesToItsPayload_miller :
    timingM.lineCode = tcmBase.lineCode.toNat ∧ 0 < timingM.halfBit ∧ 0 < timingM.window ∧ 0 < timingM.preambleLen
      ∧ timingM.preambleLen ≤ 32 ∧ tcmBase.syncThr.toNat ≤ 256
      ∧ (∀ v ∈ levelsSignal timingM 4200 [-1, 1], (v.natAbs : Int) ≤ 4200)
      ∧ demodSignal rn16M
          = levelsSignal timingM 4200
              ((List.range timingM.preambleLen).map timingM.preambleChip
                ++ lineLevels timingM.lineCode 1 true
                  (bits16 0xABCD
                    ++ bits16 (crc tcmBase.crcPoly tcmBase.crcInit tcmBase.crcXorout (bits16 0xABCD))))
            ++ levelsSignal timingM 4200 [-1, 1] := by decide +kernel
/-- X3's frame 0xABCD with 0x2B95: its first bit, the last payload bit, the first CRC bit and the last. -/
theorem witness_CrcCatchesEverySingleBitFlip :
    (0x1021#16).getLsbD 0 = true ∧ (bits16 0xABCD ++ bits16 0x2B95).length = 16 + 16
      ∧ (∀ i ∈ [0, 15, 16, 31], i < (bits16 0xABCD ++ bits16 0x2B95).length)
      ∧ crc 0x1021 0xFFFF 0xFFFF ((bits16 0xABCD ++ bits16 0x2B95).take 16)
          = BitVec.ofNat 16 (bitsToNat ((bits16 0xABCD ++ bits16 0x2B95).drop 16)) := by decide +kernel
/-- Chip sums of 0 (95_test_vectors.md "sgn at 0") among the decisions of an RN16, and the longest EPC. -/
theorem witness_FrameRecordFields :
    (burstF.hint = .rn16 ∧ (⟨0, 5⟩ :: List.replicate 31 (⟨0, -5⟩ : Decision)).length = 16 + 16)
      ∧ ({ burstF with hint := .epc } : Burst).hint = .epc ∧ 512 = ({ tcBase with epcBits := 512 } : BaseConfig).epcBits.toNat
      ∧ (List.replicate 528 (⟨1, -1⟩ : Decision)).length = 512 + 16 := by
  simp only [List.length_replicate, List.length_cons]; decide
/-- "sgn at 0" of 95_test_vectors.md section 4: no mid-bit transition, so 1 in FM0 and 0 in Miller. -/
theorem test_sgn_at_zero : Decision.bit 0 ⟨0, 5⟩ = true ∧ Decision.bit 1 ⟨0, 5⟩ = false := by decide
/-- The first four pairs of S-1 (95_test_vectors.md section 4); R129's text swaps the second (log entry 17). -/
theorem test_S1_chip_sums :
    timingF.decisions (demodSignal rn16F) 12 4 = [⟨-4092, -4092⟩, ⟨4308, -4092⟩, ⟨4308, 4308⟩, ⟨-4092, 4308⟩] := by
  decide +kernel
/-- One burst for each outcome: no hint, no candidate (S-7), A = 0 (S-6), below SYNC_THR (S-4), too short (F-2), and a
frame that just fits (S-12). -/
theorem witness_DecodeOutcomesInOrder :
    let peak := fun (xs : List Word) => timingF.findPeak (demodSignal xs)
    ({ burstF with hint := .none } : Burst).hint = .none ∧ burstTiny.hint ≠ .none ∧ peak burstTiny.samples = none
      ∧ peak (List.replicate 78 0x64) = some ⟨0, 0, 0⟩
      ∧ (peak (chips "+-" ++ rn16F) = some ⟨0, -8400, 50190⟩ ∧ 256 * 8400 < tcBase.syncThr.toNat * 50190)
      ∧ (∃ p : Peak, peak (rn16F.take 75) = some p ∧ p.amp ≠ 0 ∧ tcBase.syncThr.toNat * p.amp ≤ 256 * p.corr.natAbs
        ∧ 75 < p.offset + timingF.preambleLen * timingF.halfBit + 2 * 32 * timingF.halfBit)
      ∧ ∃ p : Peak, peak (rn16F.take 76) = some p ∧ p.amp ≠ 0 ∧ tcBase.syncThr.toNat * p.amp ≤ 256 * p.corr.natAbs
        ∧ p.offset + timingF.preambleLen * timingF.halfBit + 2 * 32 * timingF.halfBit ≤ 76 := by
  refine ⟨rfl, by decide, by decide +kernel, by decide +kernel, by decide +kernel, ?_, ?_⟩
  · exact ⟨⟨0, 50400, 50400⟩, by decide +kernel⟩
  · exact ⟨⟨0, 50400, 50400⟩, by decide +kernel⟩
theorem witness_DecodeTakesHeadBurst :
    let s := { live with bq := [burstF, burstTiny], oq := [someRecord, someRecord, someRecord] }
    s.running = true ∧ s.bq = burstF :: [burstTiny] ∧ s.oq.length < 4 ∧ s.diagEn = false
      ∧ { s with diagEn := true }.dq.length + burstF.samples.length ≤ 65536 := by decide
theorem witness_DiagnosticCopyAndDrain :
    ([0x64, 0x28] : List Word)[1]? = some 0x28 ∧ { tc with dq := [⟨1, true⟩] }.dq = ⟨1, true⟩ :: [] := ⟨rfl, rfl⟩
theorem witness_CommandErrorHasExactlyFiveCauses :
    (Instr.cmdWrite 0x42).wf = true ∧ CommandErrorCause (.cmdWrite 0x42) tc ∧ CommandErrorCause .start live
      ∧ CommandErrorCause .recompute live ∧ CommandErrorCause .pop live ∧ CommandErrorCause (.noiseFloorWrite 5) live
      ∧ ¬ CommandErrorCause .stop tc ∧ ¬ CommandErrorCause (.cmdWrite 0x2) tc := by
  simp only [CommandErrorCause]; decide
theorem witness_OnlyHaltedRecomputeChangesActive :
    nextOf (exec .recompute written) = some { tc with nf := 0 } ∧ tc.active ≠ written.active
      ∧ nextOf (exec (.cmdWrite 1) written) = some { tc with nf := 0 } := by decide +kernel
theorem witness_StatusFlagWriters :
    nextOf (exec .recompute State.reset) = some { State.reset with configErr := true }
      ∧ see State.configOk .recompute written = some true
      ∧ see State.cmdErr (.statusW1c 0x8) { tc with cmdErr := true } = some false
      ∧ see State.cmdErr (.cmdWrite 0xA5) { tc with cmdErr := true } = some false := by decide +kernel
theorem witness_SampleIndexCountsAcceptedSamples :
    (live.running = true ∧ live.bq.length ≠ 2 ∧ see State.sampleIndex (.sample 0) { live with sampleIndex := -1 } = some 0)
      ∧ see State.sampleIndex .softReset { live with sampleIndex := 7 } = some 0
      ∧ see State.sampleIndex (.sample 0) { tc with sampleIndex := 7 } = some 7 := by decide
theorem witness_HeadRecordStaysUntilPop :
    Instr.decode.wf = true ∧ { live with bq := [burstTiny], oq := [someRecord] }.oq = someRecord :: []
      ∧ (∃ t, exec .decode { live with bq := [burstTiny], oq := [someRecord] } = .next t) := ⟨rfl, rfl, _, rfl⟩
theorem witness_EveryOperationCompletes : (Instr.regRead 0xFFC).wf = true ∧ (Instr.cmdReserved 0x9).wf = true := by decide
/-- A running machine in the middle of a burst, whose next turn is a sample. -/
def midBurst : State := { gathered live 10 2 with turns := [.source], input := [0x0A] }
theorem witness_EveryStepKeepsInvariant :
    Inv midBurst ∧ nextOf (step midBurst) = some (gathered live 10 3) := by
  refine ⟨?_, by decide⟩
  constructor
  case accumulating => intro _; constructor <;> decide
  case configuredIsValid => intro _; decide +kernel
  case burstsSound => intro b hb; cases hb
  case recordsSound => intro r hr; cases hr
  all_goals decide
theorem witness_DecodeOfEncode : (Instr.regWrite 0xFFC 0xFFFFFFFF).wf = true := by decide
theorem witness_EncodeOfDecode :
    decode (.cmd 0x00000007) = .ok .pop ∧ decode (.bus ⟨.read, 4, 0x090, 5⟩) = .ok (.regRead 0x090) := by decide
theorem witness_StepRunsTheDecodedOperation :
    { tc with turns := [.host ⟨.write, 4, 0x00C, 2⟩] }.turns = .host ⟨.write, 4, 0x00C, 2⟩ :: []
      ∧ decode (.bus ⟨.write, 4, 0x00C, 2⟩) = .ok (.cmdWrite 2)
      ∧ { tc with turns := [.command 2] }.turns = .command 2 :: []
      ∧ (midBurst.turns = .source :: [] ∧ midBurst.input = 0x0A :: [] ∧ midBurst.running = true ∧ midBurst.bq.length ≠ 2)
      ∧ { tc with turns := [.decoder] }.turns = .decoder :: [] ∧ { tc with turns := [.sink] }.turns = .sink :: [] := by
  decide
theorem witness_StepWithoutOperation :
    tc.turns = [] ∧ ({ tc with turns := [.source] }.turns = .source :: [] ∧ { tc with turns := [.source] }.input = [])
      ∧ { live with turns := [.platformReset] }.turns = .platformReset :: [] := by decide

end Sys2Proof.Tests
end

section
/-! The scope of the model (spec/00_scope.md R7, R8): what a turn runs, when an agent waits, and that every operation of
the opcode table completes. -/

namespace Sys2Proof.Proofs

open Sys2Proof.Machine

/-! Reading the next turn -/

/-- A turn that presents a unit runs the operation the unit decodes to, after the source has handed its word over. -/
theorem fetchTurn_of_presented {t : Turn} {s : State} {u : Xfer} {i : Instr} (hu : presented t s = some u)
    (hi : decode u = .ok i) : fetchTurn t s = .run i (s.handOver t) := by
  cases t with
  | platformReset => cases hu
  | host _ | command _ | source | decoder | sink => simp only [fetchTurn, hu, hi]

/-- The step at a turn that presents a unit is `exec` of the decoded operation (R7; 30_encoding.md R65). -/
theorem step_of_presented {t : Turn} {s : State} {rest : List Turn} {u : Xfer} {i : Instr}
    (ht : s.turns = t :: rest) (hu : presented t { s with turns := rest } = some u) (hi : decode u = .ok i) :
    step s = exec i (State.handOver t { s with turns := rest }) := by
  have hf : fetchNext s = .run i (State.handOver t { s with turns := rest }) := by
    rw [fetchNext, ht]
    exact fetchTurn_of_presented hu hi
  rw [step, hf]

/-- At its turn a source without a word only uses the turn up. -/
theorem step_source_of_no_input {s : State} {rest : List Turn} (ht : s.turns = .source :: rest)
    (hin : s.input = []) : step s = .next { s with turns := rest } := by
  have hf : fetchNext s = .settled { s with turns := rest } := by
    rw [fetchNext, ht]
    simp only [fetchTurn, presented, hin, List.head?_nil, Option.map_none]
  rw [step, hf]

/-- At its turn a source with a word presents that word to the gate. -/
theorem step_source_of_input {s : State} {rest : List Turn} {w : Word} {ws : List Word}
    (ht : s.turns = .source :: rest) (hin : s.input = w :: ws) :
    step s = exec (.sample w) (State.handOver .source { s with turns := rest }) :=
  step_of_presented (u := .sample w) ht (by simp only [presented, hin, List.head?_cons, Option.map_some]) rfl

/-! When the gate is enabled (41_gate.md R101) -/

/-- The gate takes a sample exactly while running with room in the burst queue. -/
theorem sampleEnabled_iff (s : State) : sampleEnabled s = true ↔ s.running = true ∧ s.bq.length ≠ 2 := by
  simp [sampleEnabled, burstQFull, Config.burstQDepth]

/-- The gate waits exactly while halted or with the burst queue full. -/
theorem sampleEnabled_eq_false_iff (s : State) :
    sampleEnabled s = false ↔ s.running = false ∨ s.bq.length = 2 := by
  rw [← Bool.not_eq_true, sampleEnabled_iff, not_and_or, Bool.not_eq_true, not_not]

/-- SAMPLE where the gate waits. -/
theorem exec_sample_of_not_enabled {s : State} (w : Word) (h : sampleEnabled s = false) :
    exec (.sample w) s = .next s := by
  simp only [exec, execSample, h, Bool.false_eq_true, if_false]

/-- A source hands over the head of its stream to an enabled gate. -/
theorem handOver_source_of_enabled {s : State} (h : sampleEnabled s = true) :
    s.handOver .source = { s with input := s.input.tail } := by
  simp only [State.handOver, h, if_true]

/-- A source keeps its word while the gate waits. -/
theorem handOver_source_of_not_enabled {s : State} (h : sampleEnabled s = false) : s.handOver .source = s := by
  simp only [State.handOver, h, Bool.false_eq_true, if_false]

/-- While the gate waits, the source's turn is used up and nothing else changes, whether or not it has a word (R8). -/
theorem step_source_of_not_enabled {s : State} {rest : List Turn} (h : sampleEnabled s = false)
    (ht : s.turns = .source :: rest) : step s = .next { s with turns := rest } := by
  have h' : sampleEnabled { s with turns := rest } = false := h
  by_cases hin : s.input = []
  · exact step_source_of_no_input ht hin
  · obtain ⟨w, ws, hin⟩ := List.exists_cons_of_ne_nil hin
    rw [step_source_of_input ht hin, handOver_source_of_not_enabled h', exec_sample_of_not_enabled w h']

/-! When the decoder and the sink are enabled (43_frame_crc_collision.md R141, R145) -/

/-- There is room for the diagnostic copy of a burst exactly when no copy is asked for or the whole burst fits. -/
theorem diagRoom_iff (b : Burst) (s : State) :
    diagRoom b s = true ↔ s.diagEn = false ∨ s.dq.length + b.samples.length ≤ 65536 := by
  rw [diagRoom, Bool.or_eq_true, Bool.not_eq_true', decide_eq_true_iff, Config.diagQDepth]

/-- The decoder is enabled exactly while running, with a burst, and with room for its record and its copy. -/
theorem decodeEnabled_iff (s : State) :
    decodeEnabled s = true ↔
      ∃ b rest, s.bq = b :: rest ∧ s.running = true ∧ s.oq.length < 4
        ∧ (s.diagEn = false ∨ s.dq.length + b.samples.length ≤ 65536) := by
  cases hb : s.bq with
  | nil => simp [decodeEnabled, hb]
  | cons b rest =>
    have hdepth : Config.outQDepth = 4 := rfl
    simp only [decodeEnabled, hb, Bool.and_eq_true, decide_eq_true_iff, diagRoom_iff, hdepth, and_assoc]
    simp

/-- DECODE on the head burst where the decoder is enabled. -/
theorem exec_decode_of_enabled {s : State} {b : Burst} {rest : List Burst} (hb : s.bq = b :: rest)
    (h : decodeEnabled s = true) : exec .decode s = .next (s.decodeBurst b rest) := by
  simp only [exec, execDecode, hb, h, if_true]

/-- DECODE where the decoder waits. -/
theorem exec_decode_of_not_enabled {s : State} (h : decodeEnabled s = false) : exec .decode s = .next s := by
  simp only [exec, execDecode, h, Bool.false_eq_true, if_false]
  cases s.bq <;> rfl

/-- DIAG_DRAIN with no entry. -/
theorem exec_diagDrain_of_empty {s : State} (h : s.dq = []) : exec .diagDrain s = .next s := by
  simp only [exec, execDiagDrain, h]

/-- DIAG_DRAIN takes the head entry. -/
theorem exec_diagDrain_of_cons {s : State} {e : DiagEntry} {rest : List DiagEntry} (h : s.dq = e :: rest) :
    exec .diagDrain s = .next { s with dq := rest, delivered := s.delivered ++ [e] } := by
  simp only [exec, execDiagDrain, h]

/-! Every operation completes (00_scope.md R8; 20_memory.md R55; 60_exceptions.md R146) -/

/-- REG_READ of a word-aligned offset answers the register's value and changes nothing else (40_host_commands.md R79). -/
theorem exec_regRead_of_aligned {off : Offset} (h : wordAligned off = true) (s : State) :
    exec (.regRead off) s = .next { s with rdata := readAt off s } := by
  simp only [exec, execRegRead, h, if_true]

/-- A well-formed REG_WRITE is the write by offset (40_host_commands.md R80). -/
theorem exec_regWrite_of_wf {off : Offset} {v : Word} (h : (Instr.regWrite off v).wf = true) (s : State) :
    exec (.regWrite off v) s = .next (writeAt off v s) := by
  simp only [Instr.wf, ownWriteRow, Bool.and_eq_true, Bool.not_eq_true', Bool.or_eq_false_iff,
    beq_eq_false_iff_ne, ne_eq] at h
  obtain ⟨halign, ⟨hstatus, hcmd⟩, hnoise⟩ := h
  simp only [exec, execRegWrite, halign, hstatus, hcmd, hnoise, Bool.not_true, Bool.false_eq_true, if_false]

/-- POP with no record raises CommandError (40_host_commands.md R91). -/
theorem execPop_of_empty {s : State} (h : s.oq = []) : execPop s = .next { s with cmdErr := true } := by
  simp only [execPop, h, raise_commandError]

/-- POP removes the head record (40_host_commands.md R91). -/
theorem execPop_of_cons {s : State} {r : Record} {rest : List Record} (h : s.oq = r :: rest) :
    execPop s = .next { s with oq := rest } := by
  simp only [execPop, h]

/-- POP answers a next state, with a record to remove or without one. -/
theorem execPop_completes (s : State) : ∃ t, execPop s = .next t := by
  cases h : s.oq with
  | nil => exact ⟨_, execPop_of_empty h⟩
  | cons r rest => exact ⟨_, execPop_of_cons h⟩

/-- The rule of every command answers a next state. -/
theorem execCommand_completes (op : CmdOp) (s : State) : ∃ t, execCommand op s = .next t := by
  cases op with
  | pop => exact execPop_completes s
  | nop | recompute | start | stop | armRn16 | armEpc | disarm | clearCounters | softReset => exact ⟨_, rfl⟩

/-- CMD_WRITE of a word that names a command runs that command's rule (R83). -/
theorem execCmdWrite_of_some {v : Word} {op : CmdOp} (h : decodeOp v = some op) (s : State) :
    execCmdWrite v s = execCommand op s := by
  simp only [execCmdWrite, h]

/-- CMD_WRITE of any other word raises CommandError (R83; 30_encoding.md R69). -/
theorem execCmdWrite_of_none {v : Word} (h : decodeOp v = none) (s : State) :
    execCmdWrite v s = .next { s with cmdErr := true } := by
  simp only [execCmdWrite, h, execCmdReserved, raise_commandError]

/-- CMD_WRITE answers a next state, whatever word is written. -/
theorem execCmdWrite_completes (v : Word) (s : State) : ∃ t, execCmdWrite v s = .next t := by
  cases h : decodeOp v with
  | some op =>
    rw [execCmdWrite_of_some h]
    exact execCommand_completes op s
  | none => exact ⟨_, execCmdWrite_of_none h s⟩

/-- DECODE answers a next state, enabled or not. -/
theorem exec_decode_completes (s : State) : ∃ t, exec .decode s = .next t := by
  cases h : decodeEnabled s with
  | false => exact ⟨s, exec_decode_of_not_enabled h⟩
  | true =>
    obtain ⟨b, rest, hb, -⟩ := (decodeEnabled_iff s).1 h
    exact ⟨_, exec_decode_of_enabled hb h⟩

/-- DIAG_DRAIN answers a next state, with an entry or without one. -/
theorem exec_diagDrain_completes (s : State) : ∃ t, exec .diagDrain s = .next t := by
  cases h : s.dq with
  | nil => exact ⟨s, exec_diagDrain_of_empty h⟩
  | cons e rest => exact ⟨_, exec_diagDrain_of_cons h⟩

/-! The statements -/

/-- Settles O30: each agent's enabling condition is computed, and where it fails its step answers the state itself. -/
theorem disabledStepsWait : Obligations.DisabledStepsWait := by
  intro s
  refine ⟨fun hwait => ?_, fun hwait => ?_, exec_diagDrain_of_empty⟩
  · have h := (sampleEnabled_eq_false_iff s).2 hwait
    exact ⟨fun w => exec_sample_of_not_enabled w h, fun rest ht => step_source_of_not_enabled h ht⟩
  · refine exec_decode_of_not_enabled (Bool.eq_false_iff.2 fun hen => ?_)
    obtain ⟨b, rest, hb, hrun, hroom, hcopy⟩ := (decodeEnabled_iff s).1 hen
    rcases hwait with hhalt | hempty | hfull | ⟨hdiag, b', rest', hb', hover⟩
    · simp [hrun] at hhalt
    · simp [hb] at hempty
    · omega
    · obtain ⟨rfl, -⟩ : b' = b ∧ rest' = rest := by simpa [hb, eq_comm] using hb'
      rcases hcopy with hoff | hfits
      · simp [hdiag] at hoff
      · omega

/-- Settles O52: by cases on the operation; only REG_READ and REG_WRITE can be refused, and a well-formed one is not. -/
theorem everyOperationCompletes : Obligations.EveryOperationCompletes := by
  intro i s hwf
  cases i with
  | pop => exact execPop_completes s
  | cmdWrite v => exact execCmdWrite_completes v s
  | regRead off => exact ⟨_, exec_regRead_of_aligned hwf s⟩
  | regWrite off v => exact ⟨_, exec_regWrite_of_wf hwf s⟩
  | decode => exact exec_decode_completes s
  | diagDrain => exact exec_diagDrain_completes s
  | nop | recompute | start | stop | armRn16 | armEpc | disarm | clearCounters | softReset => exact ⟨_, rfl⟩
  | cmdReserved _ | statusW1c _ | noiseFloorWrite _ | sample _ => exact ⟨_, rfl⟩

/-- Settles O59: each agent's turn presents its unit, and the sample word is handed over when the gate is enabled. -/
theorem stepRunsTheDecodedOperation : Obligations.StepRunsTheDecodedOperation := by
  intro s rest
  refine ⟨fun a i ht hi => step_of_presented ht rfl hi, fun w ht => step_of_presented (u := .cmd w) ht rfl rfl,
    fun w ws ht hin hrun hroom => ?_, fun ht => step_of_presented (u := .decodeStep) ht rfl rfl,
    fun ht => step_of_presented (u := .diagStep) ht rfl rfl⟩
  have hen : sampleEnabled { s with turns := rest } = true := (sampleEnabled_iff _).2 ⟨hrun, hroom⟩
  rw [step_source_of_input ht hin, handOver_source_of_enabled hen]
  simp only [hin, List.tail_cons]

end Sys2Proof.Proofs
end

section
/-! What the host reads of the state (10_state.md R20 to R23, R37, R39, R41; 30_encoding.md R72, R73): a read by register,
and the words that are put together from several fields. -/

namespace Sys2Proof.Proofs

open Sys2Proof.Machine

/-! A read by register -/

/-- Every register of the map is at a word-aligned offset (30_encoding.md R66; 20_memory.md R52). -/
theorem wordAligned_offset (r : Reg) : wordAligned r.offset = true := by
  cases r with
  | base b => cases b <;> rfl
  | cnt c => cases c <;> rfl
  | outData i => revert i; decide
  | _ => rfl

/-- REG_READ of a register's offset answers that register (40_host_commands.md R79). -/
theorem exec_regRead_offset (r : Reg) (s : State) :
    exec (.regRead r.offset) s = .next { s with rdata := readReg r s } := by
  rw [exec_regRead_of_aligned (wordAligned_offset r), readAt_of_eq (ofOffset_offset r)]

/-- What the map finds at an offset is a register of that offset. -/
theorem offset_of_ofOffset {off : Offset} {r : Reg} (h : Reg.ofOffset off = some r) : r.offset = off := by
  simpa using List.find?_some h

/-! Fields side by side -/

/-- The value of two fields side by side. -/
theorem toNat_append_eq_add {m n : Nat} (x : BitVec m) (y : BitVec n) :
    (x ++ y).toNat = x.toNat * 2 ^ n + y.toNat := by
  rw [BitVec.toNat_append, ← Nat.shiftLeft_add_eq_or_of_lt y.isLt, Nat.shiftLeft_eq]

/-- What a flag at a bit of weight `k` adds to its word. -/
theorem mul_toNat_eq_ite (k : Nat) (b : Bool) : k * b.toNat = if b = true then k else 0 := by
  cases b <;> simp

/-- The _LO register of a 64-bit value (20_memory.md R53). -/
theorem lo64_eq_setWidth (x : Index) : lo64 x = x.setWidth 32 :=
  (BitVec.setWidth_eq_extractLsb' (by decide)).symm

/-- The _HI register of a 64-bit value (20_memory.md R53). -/
theorem hi64_eq_setWidth (x : Index) : hi64 x = (x >>> 32).setWidth 32 := by
  apply BitVec.eq_of_toNat_eq
  simp [hi64]

/-! STATUS and IRQ_EN -/

/-- STATUS.EXPECT's code (10_state.md R44). -/
theorem expect_code_toNat (e : Expect) : e.code.toNat = (match e with | .none => 0 | .rn16 => 1 | .epc => 2) := by
  cases e <;> rfl

/-- FRAME_AVAIL is 0 exactly when the output FIFO is empty (R20). -/
theorem frameAvail_eq_decide (s : State) : frameAvail s = decide (s.oq ≠ []) := by
  cases h : s.oq <;> simp [frameAvail, h]

/-- DIAG_PENDING is 0 exactly when the diagnostic queue is empty (R20). -/
theorem not_isEmpty_dq (s : State) : (!s.dq.isEmpty) = decide (s.dq ≠ []) := by
  cases h : s.dq <;> simp

/-- GATE_ACCUM (R20). -/
theorem gateAccum_eq_decide (s : State) : gateAccum s = decide (s.gate.gst = .accumulating) := rfl

/-- BURSTQ_FULL (R20; 00_scope.md R15). -/
theorem burstQFull_eq_decide (s : State) : burstQFull s = decide (s.bq.length = 2) := rfl

/-- OUT_FULL (R20; 00_scope.md R15). -/
theorem outQFull_eq_decide (s : State) : outQFull s = decide (s.oq.length = 4) := rfl

/-- The value of STATUS as the sum of its fields at their bits, where the two counts fit theirs (R20). -/
theorem statusWord_toNat {s : State} (hbq : s.bq.length ≤ 2) (hoq : s.oq.length ≤ 4) :
    (statusWord s).toNat =
      1 * s.running.toNat + 2 * s.configOk.toNat + 4 * s.configErr.toNat + 8 * s.cmdErr.toNat
        + 16 * (frameAvail s).toNat + 32 * (outQFull s).toNat + 64 * (burstQFull s).toNat + 128 * (gateAccum s).toNat
        + 256 * s.oq.length + 2048 * s.bq.length + 16384 * (!s.dq.isEmpty).toNat + 65536 * s.expect.code.toNat := by
  have hb : s.bq.length % 2 ^ 3 = s.bq.length := Nat.mod_eq_of_lt (by omega)
  have ho : s.oq.length % 2 ^ 3 = s.oq.length := Nat.mod_eq_of_lt (by omega)
  simp only [statusWord, toNat_append_eq_add, BitVec.toNat_ofBool, BitVec.toNat_ofNat, hb, ho]
  omega

/-- The value of IRQ_EN as the sum of its enables at their bits (R22). -/
theorem irqEnable_word_toNat (e : IrqEnable) :
    e.word.toNat = 4 * e.cfgErrEn.toNat + 8 * e.cmdErrEn.toNat + 16 * e.frameEn.toNat := by
  simp only [IrqEnable.word, toNat_append_eq_add, BitVec.toNat_ofBool, BitVec.toNat_ofNat]
  omega

/-! The thresholds and BURST_START -/

/-- A threshold reads saturated (R37). -/
theorem thrWord_toNat (thr : Nat) : (thrWord thr).toNat = min thr 0xFFFFFFFF := by
  rw [thrWord, BitVec.toNat_ofNat]
  omega

/-- BURST_START in SEARCHING (R39). -/
theorem burstStart_of_searching {s : State} (h : s.gate.gst = .searching) : burstStart s = 0 := by
  rw [burstStart, h]

/-- BURST_START in ACCUMULATING (R39). -/
theorem burstStart_of_accumulating {s : State} (h : s.gate.gst = .accumulating) : burstStart s = s.gate.gStart := by
  rw [burstStart, h]

/-! The output window -/

/-- A word of the window while the output FIFO is empty (R41). -/
theorem outView_of_empty {s : State} (h : s.oq = []) (f : Record → Word) : outView s f = 0 := by
  rw [outView, h]

/-- A word of the window with a record at the head of the FIFO (R41). -/
theorem outView_of_cons {s : State} {r : Record} {rest : List Record} (h : s.oq = r :: rest) (f : Record → Word) :
    outView s f = f r := by
  rw [outView, h]

/-- Every register from 0x100 on is a word of the output window (30_encoding.md R66). -/
theorem readReg_eq_outView {r : Reg} (h : 0x100 ≤ r.offset.toNat) : ∃ f, ∀ s, readReg r s = outView s f := by
  cases r with
  | outHdr | outStartLo | outStartHi | outEndLo | outEndHi => exact ⟨_, fun _ => rfl⟩
  | outCrc | outColl | outSyncOffset | outSyncQ | outData _ => exact ⟨_, fun _ => rfl⟩
  | base b => cases b <;> exact absurd h (by decide)
  | cnt c => cases c <;> exact absurd h (by decide)
  | _ => exact absurd h (by decide)

/-- From 0x100 on every offset reads 0 while the output FIFO is empty, reserved or not (R41; 20_memory.md R51). -/
theorem readAt_window_of_empty {off : Offset} {s : State} (hoff : 0x100 ≤ off.toNat) (h : s.oq = []) :
    readAt off s = 0 := by
  cases hr : Reg.ofOffset off with
  | none => rw [readAt, hr]
  | some r =>
    rw [← offset_of_ofOffset hr] at hoff
    obtain ⟨f, hf⟩ := readReg_eq_outView hoff
    rw [readAt_of_eq hr, hf, outView_of_empty h]

/-- OUT_HDR.STATUS's code (30_encoding.md R75). -/
theorem recStatus_code_toNat (st : RecStatus) :
    st.code.toNat = (match st with
      | .frameOk => 0 | .crcInvalid => 1 | .syncFailure => 2 | .lengthMismatch => 3 | .unsolicited => 4) := by
  cases st <;> rfl

/-- OUT_HDR.KIND's code (30_encoding.md R76). -/
theorem kind_code_toNat (k : Kind) : k.code.toNat = (match k with | .unknown => 0 | .rn16 => 1 | .epc => 2) := by
  cases k <;> rfl

/-- The value of OUT_HDR as the sum of its fields at their bits (30_encoding.md R72). -/
theorem hdrWord_toNat (r : Record) :
    r.hdrWord.toNat =
      1 * r.valid.toNat + 2 * r.status.code.toNat + 16 * r.kind.code.toNat + 64 * r.crcValid.toNat
        + 128 * r.collision.toNat + 256 * r.polarity.toNat + 1024 * r.hint.code.toNat
        + 65536 * r.payloadLen.toNat := by
  simp only [Record.hdrWord, toNat_append_eq_add, BitVec.toNat_ofBool, BitVec.toNat_ofNat]
  omega

/-- The value of OUT_CRC (30_encoding.md R73). -/
theorem crcWord_toNat (r : Record) : r.crcWord.toNat = 65536 * r.crcCalc.toNat + r.crcRx.toNat := by
  rw [Record.crcWord, toNat_append_eq_add]
  omega

/-- The value of OUT_COLL (30_encoding.md R73). -/
theorem collWord_toNat (r : Record) : r.collWord.toNat = 65536 * r.lowconfCount.toNat + r.violCount.toNat := by
  rw [Record.collWord, toNat_append_eq_add]
  omega

/-! The statements -/

/-- Settles O12: STATUS is the sum of its fields at their bits, and each flag is the condition it stands for. -/
theorem statusReadFields : Obligations.StatusReadFields := by
  intro s hbq hoq
  refine ⟨statusWord s, exec_regRead_offset .status s, ?_⟩
  rw [statusWord_toNat hbq hoq, frameAvail_eq_decide, outQFull_eq_decide, burstQFull_eq_decide, gateAccum_eq_decide,
    not_isEmpty_dq]
  simp only [mul_toNat_eq_ite, ite_not, ne_eq, decide_eq_true_eq]
  exact congrArg (_ + 65536 * ·) (expect_code_toNat s.expect)

/-- Settles O13: each read is the register at its offset, and that register's word is known by its lemma. -/
theorem controlThresholdAndBurstStartReads : Obligations.ControlThresholdAndBurstStartReads := by
  intro s
  refine ⟨⟨_, exec_regRead_offset .irqEn s, ?_⟩, ?_, ⟨_, exec_regRead_offset .enterThr s, thrWord_toNat _⟩,
    ⟨_, exec_regRead_offset .exitThr s, thrWord_toNat _⟩, fun hgst => ?_, fun hgst => ?_⟩
  · simp only [readReg, irqEnable_word_toNat, mul_toNat_eq_ite]
  · have hctrl : readReg .ctrl s = if s.diagEn then 1 else 0 := by
      cases h : s.diagEn <;> simp [readReg, h]
    exact hctrl ▸ exec_regRead_offset .ctrl s
  · have hlo : readReg .burstStartLo s = 0 := by rw [readReg, burstStart_of_searching hgst]; rfl
    have hhi : readReg .burstStartHi s = 0 := by rw [readReg, burstStart_of_searching hgst]; rfl
    exact ⟨hlo ▸ exec_regRead_offset .burstStartLo s, hhi ▸ exec_regRead_offset .burstStartHi s⟩
  · have hlo : readReg .burstStartLo s = s.gate.gStart.setWidth 32 := by
      rw [readReg, burstStart_of_accumulating hgst, lo64_eq_setWidth]
    have hhi : readReg .burstStartHi s = (s.gate.gStart >>> 32).setWidth 32 := by
      rw [readReg, burstStart_of_accumulating hgst, hi64_eq_setWidth]
    exact ⟨hlo ▸ exec_regRead_offset .burstStartLo s, hhi ▸ exec_regRead_offset .burstStartHi s⟩

/-- Settles O15: a register of the window is a view of the head record, 0 where there is none. -/
theorem outputWindowShowsHeadRecord : Obligations.OutputWindowShowsHeadRecord := by
  refine ⟨fun off s halign hlow _ hempty => ?_, fun s r rest hoq hvalid => ?_⟩
  · rw [exec_regRead_of_aligned ((wordAligned_iff off).2 halign), readAt_window_of_empty hlow hempty]
  · have hview (reg : Reg) (v : Word) (hv : readReg reg s = v) :
        exec (.regRead reg.offset) s = .next { s with rdata := v } := hv ▸ exec_regRead_offset reg s
    refine ⟨⟨_, hview .outHdr _ (outView_of_cons hoq _), ?_⟩, hview .outStartLo _ ?_, hview .outStartHi _ ?_,
      hview .outEndLo _ ?_, hview .outEndHi _ ?_, ⟨_, hview .outCrc _ (outView_of_cons hoq _), crcWord_toNat r⟩,
      ⟨_, hview .outColl _ (outView_of_cons hoq _), collWord_toNat r⟩, hview .outSyncOffset _ (outView_of_cons hoq _),
      hview .outSyncQ _ (outView_of_cons hoq _)⟩
    · simp only [hdrWord_toNat, hvalid, mul_toNat_eq_ite, recStatus_code_toNat, kind_code_toNat, expect_code_toNat]
      rfl
    all_goals simp only [readReg, outView_of_cons hoq, lo64_eq_setWidth, hi64_eq_setWidth]

end Sys2Proof.Proofs
end

section
/-! What an operation does to the configuration, the sticky bits and the sample index (10_state.md R34, R38, R48): the
operations that touch them are named once in `ControlEffect`, and each statement is a case analysis of it. -/

namespace Sys2Proof.Proofs

open Sys2Proof.Machine

/-! The operation whose rule runs (40_host_commands.md R83) -/

/-- The operation whose rule an operation runs: a CMD write runs the one its data word is, every other one its own. -/
def ruleRun (i : Instr) : Instr :=
  match i with
  | .cmdWrite v => decodeCmd v
  | i => i

/-- A CMD word is a command exactly when it is that command's full word (30_encoding.md R68). -/
theorem decodeCmd_eq_instr_iff (v : Word) (op : CmdOp) : decodeCmd v = op.instr ↔ v = op.word := by
  rw [← decodeOp_eq_some_iff, decodeCmd]
  cases decodeOp v with
  | none => cases op <;> simp [CmdOp.instr]
  | some op' => cases op <;> cases op' <;> simp [CmdOp.instr]

/-- A command's rule is run by the command itself and by the CMD write of its word alone. -/
theorem ruleRun_eq_instr_iff (i : Instr) (op : CmdOp) :
    ruleRun i = op.instr ↔ i = op.instr ∨ i = .cmdWrite op.word := by
  cases i with
  | cmdWrite v =>
    have hne : Instr.cmdWrite v ≠ op.instr := by cases op <;> simp [CmdOp.instr]
    simp [ruleRun, decodeCmd_eq_instr_iff, hne]
  | _ => simp [ruleRun]

/-- RECOMPUTE's rule is run by RECOMPUTE and by the CMD write of it alone. -/
theorem ruleRun_eq_recompute_iff (i : Instr) :
    ruleRun i = .recompute ↔ i = .recompute ∨ i = .cmdWrite 0x00000001 := ruleRun_eq_instr_iff i .recompute

/-- SOFT_RESET's rule is run by SOFT_RESET and by the CMD write of it alone. -/
theorem ruleRun_eq_softReset_iff (i : Instr) :
    ruleRun i = .softReset ↔ i = .softReset ∨ i = .cmdWrite 0x000000A5 := ruleRun_eq_instr_iff i .softReset

/-- A CMD write runs the rule of a command or that of CMD_RESERVED (R83; 30_encoding.md R67 to R69). -/
theorem cmdWrite_cases (v : Word) (s : State) :
    (∃ op : CmdOp, ruleRun (.cmdWrite v) = op.instr ∧ exec (.cmdWrite v) s = execCommand op s)
      ∨ (ruleRun (.cmdWrite v) = .cmdReserved v ∧ exec (.cmdWrite v) s = exec (.cmdReserved v) s) := by
  cases h : decodeOp v with
  | none => exact .inr ⟨by simp only [ruleRun, decodeCmd, h], execCmdWrite_of_none h s⟩
  | some op => exact .inl ⟨op, by simp only [ruleRun, decodeCmd, h], execCmdWrite_of_some h s⟩

/-- A rule that is no command's and not CMD_RESERVED's is run by its own operation alone. -/
theorem eq_of_ruleRun_eq {i j : Instr} (hcmd : ∀ op : CmdOp, op.instr ≠ j) (hres : ∀ w, .cmdReserved w ≠ j)
    (h : ruleRun i = j) : i = j := by
  cases i with
  | cmdWrite v =>
    rcases cmdWrite_cases v State.reset with ⟨op, hv, -⟩ | ⟨hv, -⟩
    · exact absurd (hv.symm.trans h) (hcmd op)
    · exact absurd (hv.symm.trans h) (hres v)
  | _ => exact h

/-- STATUS_W1C is run by a STATUS write alone. -/
theorem eq_statusW1c_of_ruleRun {i : Instr} {v : Word} (h : ruleRun i = .statusW1c v) : i = .statusW1c v :=
  eq_of_ruleRun_eq (fun op => by cases op <;> simp [CmdOp.instr]) (fun w => by simp) h

/-- SAMPLE is run by the gate's step alone. -/
theorem ruleRun_eq_sample_iff {i : Instr} {w : Word} : ruleRun i = .sample w ↔ i = .sample w :=
  ⟨eq_of_ruleRun_eq (fun op => by cases op <;> simp [CmdOp.instr]) (fun w => by simp), fun h => by subst h; rfl⟩

/-! What each operation does to the configuration, the sticky bits and the sample index -/

/-- From `s` to `t` the active configuration, the derived registers, CONFIG_OK and CONFIG_ERR are kept, and CMD_ERR is
not cleared. -/
structure ControlKept (s t : State) : Prop where
  active : t.active = s.active
  derived : t.derived = s.derived
  configOk : t.configOk = s.configOk
  configErr : t.configErr = s.configErr
  cmdErr : s.cmdErr = true → t.cmdErr = true

/-- What running the rule of an operation in `s` can do to the configuration, the sticky bits and the sample index. The
operations named are the only ones that do more than to set CMD_ERR. -/
inductive ControlEffect (s : State) : Instr → State → Prop where
  /-- RECOMPUTE while halted, with a base configuration that passes the check (R85). -/
  | recomputeLatches (halted : s.running = false) :
      ControlEffect s .recompute { s with active := s.base, derived := s.base.derive, configOk := true }
  /-- RECOMPUTE while halted, with one that does not (R85). -/
  | recomputeRejects (halted : s.running = false) :
      ControlEffect s .recompute { s with configErr := true, configOk := false }
  /-- SOFT_RESET (R93). -/
  | softReset : ControlEffect s .softReset s.softReset
  /-- STATUS_W1C (R81). -/
  | statusW1c (v : Word) :
      ControlEffect s (.statusW1c v)
        { s with configErr := s.configErr && !v.getLsbD 2, cmdErr := s.cmdErr && !v.getLsbD 3 }
  /-- An accepted sample (41_gate.md R101). -/
  | sampleTaken (w : Word) (t : State) (enabled : sampleEnabled s = true) (kept : ControlKept s t)
      (counted : t.sampleIndex = s.sampleIndex + 1) : ControlEffect s (.sample w) t
  /-- Everything else: also a RECOMPUTE that is refused, and a sample that is not taken. -/
  | other (i : Instr) (t : State) (notReset : i ≠ .softReset)
      (notTaken : ¬ ((∃ w, i = .sample w) ∧ sampleEnabled s = true)) (kept : ControlKept s t)
      (uncounted : t.sampleIndex = s.sampleIndex) : ControlEffect s i t

/-- An operation that changes none of these. -/
theorem ControlKept.refl (s : State) : ControlKept s s := ⟨rfl, rfl, rfl, rfl, id⟩

/-- An operation that raises CommandError (60_exceptions.md R154). -/
theorem controlKept_commandError (s : State) : ControlKept s (s.raise .commandError) :=
  ⟨rfl, rfl, rfl, rfl, fun _ => rfl⟩

/-- RECOMPUTE in each state (R85). -/
theorem execRecompute_effect {s t : State} (h : execRecompute s = .next t) : ControlEffect s .recompute t := by
  cases h
  cases hrun : s.running with
  | true => exact .other _ _ (by simp) (by simp) (controlKept_commandError s) rfl
  | false =>
    rcases latchConfig_cases s with ⟨-, hlatch⟩ | ⟨-, hlatch⟩
    · simpa [hlatch] using ControlEffect.recomputeLatches hrun
    · simpa [hlatch] using ControlEffect.recomputeRejects hrun

/-- Every command has its effect (R85 to R94). -/
theorem execCommand_effect {op : CmdOp} {s t : State} (h : execCommand op s = .next t) :
    ControlEffect s op.instr t := by
  have other {u : State} (hop : op ≠ .softReset) (hkept : ControlKept s u) (hidx : u.sampleIndex = s.sampleIndex) :
      ControlEffect s op.instr u :=
    .other _ _ (by cases op <;> simp_all [CmdOp.instr]) (by cases op <;> simp [CmdOp.instr]) hkept hidx
  cases op with
  | recompute => exact execRecompute_effect h
  | softReset => cases h; exact .softReset
  | nop => cases h; exact other (by simp) (.refl s) rfl
  | start =>
    cases h
    split
    · exact other (by simp) (controlKept_commandError s) rfl
    · exact other (by simp) ⟨rfl, rfl, rfl, rfl, id⟩ rfl
  | stop =>
    cases h
    split
    · exact other (by simp) ⟨rfl, rfl, rfl, rfl, id⟩ rfl
    · exact other (by simp) (.refl s) rfl
  | pop =>
    cases hoq : s.oq with
    | nil =>
      cases (execPop_of_empty hoq).symm.trans h
      exact other (by simp) (controlKept_commandError s) rfl
    | cons r rest =>
      cases (execPop_of_cons hoq).symm.trans h
      exact other (by simp) ⟨rfl, rfl, rfl, rfl, id⟩ rfl
  | armRn16 | armEpc | disarm | clearCounters => cases h; exact other (by simp) ⟨rfl, rfl, rfl, rfl, id⟩ rfl

/-- SAMPLE, taken or not (41_gate.md R101). -/
theorem exec_sample_effect {w : Word} {s t : State} (h : exec (.sample w) s = .next t) :
    ControlEffect s (.sample w) t := by
  cases hen : sampleEnabled s with
  | false =>
    cases (exec_sample_of_not_enabled w hen).symm.trans h
    exact .other _ _ (by simp) (by simp [hen]) (.refl s) rfl
  | true =>
    obtain rfl : s.takeSample w = t := by simpa [exec, execSample, hen] using h
    obtain ⟨g, q, c, n, htake⟩ := takeSample_frame w s
    rw [htake]
    exact .sampleTaken w _ hen ⟨rfl, rfl, rfl, rfl, id⟩ rfl

/-- DECODE keeps the configuration, the sticky bits and the sample index (43_frame_crc_collision.md R141). -/
theorem exec_decode_kept {s t : State} (h : exec .decode s = .next t) :
    ControlKept s t ∧ t.sampleIndex = s.sampleIndex := by
  cases hen : decodeEnabled s with
  | false =>
    cases (exec_decode_of_not_enabled hen).symm.trans h
    exact ⟨.refl s, rfl⟩
  | true =>
    obtain ⟨b, rest, hb, -⟩ := (decodeEnabled_iff s).1 hen
    obtain ⟨c, hdec⟩ := decodeBurst_frame b rest s
    cases (exec_decode_of_enabled hb hen).symm.trans h
    rw [hdec]
    exact ⟨⟨rfl, rfl, rfl, rfl, id⟩, rfl⟩

/-- DIAG_DRAIN keeps the configuration, the sticky bits and the sample index (43_frame_crc_collision.md R145). -/
theorem exec_diagDrain_kept {s t : State} (h : exec .diagDrain s = .next t) :
    ControlKept s t ∧ t.sampleIndex = s.sampleIndex := by
  cases hdq : s.dq with
  | nil =>
    cases (exec_diagDrain_of_empty hdq).symm.trans h
    exact ⟨.refl s, rfl⟩
  | cons e rest =>
    cases (exec_diagDrain_of_cons hdq).symm.trans h
    exact ⟨⟨rfl, rfl, rfl, rfl, id⟩, rfl⟩

/-- Every well-formed operation has the effect of the rule it runs. -/
theorem exec_effect {i : Instr} {s t : State} (hwf : i.wf = true) (h : exec i s = .next t) :
    ControlEffect s (ruleRun i) t := by
  cases i with
  | nop => exact execCommand_effect (op := .nop) h
  | recompute => exact execCommand_effect (op := .recompute) h
  | start => exact execCommand_effect (op := .start) h
  | stop => exact execCommand_effect (op := .stop) h
  | armRn16 => exact execCommand_effect (op := .armRn16) h
  | armEpc => exact execCommand_effect (op := .armEpc) h
  | disarm => exact execCommand_effect (op := .disarm) h
  | pop => exact execCommand_effect (op := .pop) h
  | clearCounters => exact execCommand_effect (op := .clearCounters) h
  | softReset => exact execCommand_effect (op := .softReset) h
  | cmdReserved w => cases h; exact .other _ _ (by simp [ruleRun]) (by simp [ruleRun]) (controlKept_commandError s) rfl
  | regRead off =>
    cases (exec_regRead_of_aligned hwf s).symm.trans h
    exact .other _ _ (by simp [ruleRun]) (by simp [ruleRun]) ⟨rfl, rfl, rfl, rfl, id⟩ rfl
  | regWrite off v =>
    obtain ⟨b, e, d, hwrite⟩ := writeAt_frame off v s
    cases (exec_regWrite_of_wf hwf s).symm.trans h
    rw [hwrite]
    exact .other _ _ (by simp [ruleRun]) (by simp [ruleRun]) ⟨rfl, rfl, rfl, rfl, id⟩ rfl
  | statusW1c v => cases h; exact .statusW1c v
  | cmdWrite v =>
    rcases cmdWrite_cases v s with ⟨op, hrule, hexec⟩ | ⟨hrule, hexec⟩
    · exact hrule ▸ execCommand_effect (hexec.symm.trans h)
    · cases hexec.symm.trans h
      exact .other _ _ (by simp [hrule]) (by simp [hrule]) (controlKept_commandError s) rfl
  | noiseFloorWrite v =>
    cases h
    split
    · exact .other _ _ (by simp [ruleRun]) (by simp [ruleRun]) (controlKept_commandError s) rfl
    · exact .other _ _ (by simp [ruleRun]) (by simp [ruleRun]) ⟨rfl, rfl, rfl, rfl, id⟩ rfl
  | sample w => exact exec_sample_effect h
  | decode =>
    obtain ⟨hkept, hidx⟩ := exec_decode_kept h
    exact .other _ _ (by simp [ruleRun]) (by simp [ruleRun]) hkept hidx
  | diagDrain =>
    obtain ⟨hkept, hidx⟩ := exec_diagDrain_kept h
    exact .other _ _ (by simp [ruleRun]) (by simp [ruleRun]) hkept hidx

/-! The statements -/

/-- Settles O48: of the effects only a passing RECOMPUTE while halted changes the active configuration or the derived
registers. -/
theorem onlyHaltedRecomputeChangesActive : Obligations.OnlyHaltedRecomputeChangesActive := by
  intro i s t hwf h hchange
  have heff := exec_effect hwf h
  generalize hj : ruleRun i = j at heff
  cases heff with
  | recomputeLatches halted => exact ⟨halted, (ruleRun_eq_recompute_iff i).1 hj, rfl, rfl⟩
  | recomputeRejects | softReset | statusW1c => simp at hchange
  | sampleTaken _ _ _ kept | other _ _ _ _ kept => simp [kept.active, kept.derived] at hchange

/-- Settles O49: read off the effects of RECOMPUTE, SOFT_RESET and STATUS_W1C; every other one keeps CONFIG_OK and
CONFIG_ERR and clears no sticky bit. -/
theorem statusFlagWriters : Obligations.StatusFlagWriters := by
  intro i s t hwf h
  have heff := exec_effect hwf h
  generalize hj : ruleRun i = j at heff
  cases heff with
  | recomputeLatches | recomputeRejects =>
    have hi := (ruleRun_eq_recompute_iff i).1 hj
    exact ⟨fun _ => hi, fun _ _ => hi, fun hclear => by simp_all⟩
  | softReset => exact ⟨by simp, by simp, fun _ => .inr ((ruleRun_eq_softReset_iff i).1 hj)⟩
  | statusW1c v =>
    exact ⟨by simp, fun hclear hset => by simp [hclear] at hset, fun _ => .inl ⟨v, eq_statusW1c_of_ruleRun hj⟩⟩
  | sampleTaken _ _ _ kept | other _ _ _ _ kept =>
    refine ⟨fun hne => absurd kept.configOk hne, fun hclear hset => ?_, fun hclear => ?_⟩
    · simp [kept.configErr, hclear] at hset
    · rcases hclear with ⟨hset, hclear⟩ | ⟨hset, hclear⟩
      · simp [kept.configErr, hset] at hclear
      · simp [kept.cmdErr hset] at hclear

/-- The three clauses of R38, in terms of the rule that runs: an accepted sample counts, SOFT_RESET clears the index, and
every other effect keeps it. -/
theorem sampleIndex_of_effect {j : Instr} {s t : State} (heff : ControlEffect s j t) :
    ((∃ w, j = .sample w) ∧ sampleEnabled s = true → t.sampleIndex = s.sampleIndex + 1)
      ∧ (j = .softReset → t.sampleIndex = 0)
      ∧ (¬ ((∃ w, j = .sample w) ∧ sampleEnabled s = true) → j ≠ .softReset → t.sampleIndex = s.sampleIndex) := by
  cases heff with
  | recomputeLatches | recomputeRejects | softReset | statusW1c => simp
  | sampleTaken w _ enabled _ counted => simp [enabled, counted]
  | other _ _ notReset notTaken _ uncounted =>
    exact ⟨fun htaken => absurd htaken notTaken, fun hreset => absurd hreset notReset, fun _ _ => uncounted⟩

/-- Settles O50: the clauses for the rule that runs, with an accepted sample and SOFT_RESET traced to their operations. -/
theorem sampleIndexCountsAcceptedSamples : Obligations.SampleIndexCountsAcceptedSamples := by
  intro i s t hwf h
  obtain ⟨hcount, hzero, hkeep⟩ := sampleIndex_of_effect (exec_effect hwf h)
  simp only [ruleRun_eq_sample_iff, sampleEnabled_iff] at hcount hkeep
  rw [ruleRun_eq_softReset_iff] at hzero
  exact ⟨hcount, hzero, fun hother hne hne' =>
    hkeep hother fun hreset => ((ruleRun_eq_softReset_iff i).1 hreset).elim hne hne'⟩

end Sys2Proof.Proofs
end

section
/-! The register window and the bus interface (20_memory.md R50 to R56): which offsets read what, which ignore a write,
and which accesses are refused. -/

namespace Sys2Proof.Proofs

open Sys2Proof.Machine

/-! Reading by offset -/

/-- A read at a register's offset gives that register (40_host_commands.md R79). -/
theorem readAt_offset (r : Reg) (s : State) : readAt r.offset s = readReg r s :=
  readAt_of_eq (ofOffset_offset r) s

/-- What the host last read is in no register of the window (20_memory.md R56). -/
theorem readAt_rdata (off : Offset) (v : Word) (s : State) : readAt off { s with rdata := v } = readAt off s := by
  cases h : Reg.ofOffset off with
  | none => simp only [readAt, h]
  | some r => rw [readAt_of_eq h, readAt_of_eq h, readReg_rdata]

/-- The constants and the registers of stored values, in the order of `liveReads`. -/
def liveRegs : List Reg :=
  ([.id, .version, .cmd, .sampleRate, .sps, .halfBit, .syncWindow, .noiseFloor, .sampleIndexLo,
      .sampleIndexHi] : List Reg)
    ++ CounterReg.all.map Reg.cnt

/-- The list of configuration reads is what the base configuration registers read. -/
theorem configReads_eq_map (s : State) :
    configReads s.base = (BaseReg.all.map .base).map fun r => (r.offset, readReg r s) := rfl

/-- The list of the other reads is what those registers read. -/
theorem liveReads_eq_map (s : State) : liveReads s = liveRegs.map fun r => (r.offset, readReg r s) := by
  rw [liveReads, ← lo64_eq_setWidth, ← hi64_eq_setWidth]
  rfl

/-- A read at an offset of either list gives the value listed for it (30_encoding.md R66). -/
theorem readAt_of_mem_reads {off : Offset} {x : Word} {s : State} (h : (off, x) ∈ configReads s.base ++ liveReads s) :
    readAt off s = x := by
  rw [configReads_eq_map, liveReads_eq_map, ← List.map_append, List.mem_map] at h
  obtain ⟨r, -, hr⟩ := h
  obtain ⟨rfl, rfl⟩ := Prod.mk.inj hr
  exact readAt_offset r s

/-! Reserved offsets -/

/-- No register of the map is at an offset that 20_memory.md R50 reserves. -/
theorem not_reservedOffset_offset (r : Reg) : ¬ ReservedOffset r.offset := by
  unfold ReservedOffset
  cases r with
  | base b => cases b <;> decide
  | cnt c => cases c <;> decide
  | outData i => revert i; decide
  | _ => decide

/-- The map has no register at a reserved offset. -/
theorem ofOffset_of_reserved {off : Offset} (h : ReservedOffset off) : Reg.ofOffset off = none := by
  cases hr : Reg.ofOffset off with
  | none => rfl
  | some r => exact absurd (offset_of_ofOffset hr ▸ h) (not_reservedOffset_offset r)

/-- An offset without a register reads 0 (20_memory.md R51). -/
theorem readAt_of_none {off : Offset} (h : Reg.ofOffset off = none) (s : State) : readAt off s = 0 := by
  rw [readAt, h]

/-- An offset without a register ignores a write (20_memory.md R51). -/
theorem writeAt_of_none {off : Offset} (h : Reg.ofOffset off = none) (v : Word) (s : State) : writeAt off v s = s := by
  rw [writeAt, h]

/-! Writing by offset -/

/-- The three offsets with write rows of their own are those of STATUS, CMD and NOISE_FLOOR. -/
theorem ownWriteRow_iff (off : Offset) :
    ownWriteRow off = true ↔ off = Reg.status.offset ∨ off = Reg.cmd.offset ∨ off = Reg.noiseFloor.offset := by
  simp only [ownWriteRow, Bool.or_eq_true, beq_iff_eq, or_assoc]
  rfl

/-- An offset without a register has no write row of its own. -/
theorem ownWriteRow_of_none {off : Offset} (h : Reg.ofOffset off = none) : ownWriteRow off = false := by
  rw [Bool.eq_false_iff, ne_eq, ownWriteRow_iff]
  rintro (rfl | rfl | rfl) <;> simp [ofOffset_offset] at h

/-- REG_WRITE at a word-aligned offset with no row of its own is the write by offset (40_host_commands.md R80). -/
theorem exec_regWrite_of_aligned {off : Offset} (halign : wordAligned off = true) (hown : ownWriteRow off = false)
    (v : Word) (s : State) : exec (.regWrite off v) s = .next (writeAt off v s) :=
  exec_regWrite_of_wf (by simp only [Instr.wf, halign, hown, Bool.not_false, Bool.and_true]) s

/-- REG_WRITE of a register's offset writes that register, unless it has a row of its own (R80). -/
theorem exec_regWrite_offset {r : Reg} (hown : ownWriteRow r.offset = false) (v : Word) (s : State) :
    exec (.regWrite r.offset v) s = .next (writeReg r v s) := by
  rw [exec_regWrite_of_aligned (wordAligned_offset r) hown, writeAt, ofOffset_offset]

/-- REG_WRITE stores nothing but IRQ_EN, CTRL and the base configuration (R80). -/
theorem writeReg_eq_self {r : Reg} (hirq : r ≠ .irqEn) (hctrl : r ≠ .ctrl) (hbase : ∀ b, r ≠ .base b) (v : Word)
    (s : State) : writeReg r v s = s := by
  cases r with
  | irqEn => exact absurd rfl hirq
  | ctrl => exact absurd rfl hctrl
  | base b => exact absurd rfl (hbase b)
  | _ => rfl

/-- The read-only registers, in the order of `readOnlyOffsets`. -/
def readOnlyRegs : List Reg :=
  ([.id, .version, .sampleRate, .sps, .halfBit, .syncWindow, .enterThr, .exitThr, .sampleIndexLo, .sampleIndexHi,
      .burstStartLo, .burstStartHi] : List Reg)
    ++ CounterReg.all.map Reg.cnt
    ++ ([.outHdr, .outStartLo, .outStartHi, .outEndLo, .outEndHi, .outCrc, .outColl, .outSyncOffset,
      .outSyncQ] : List Reg)
    ++ (List.finRange 16).map Reg.outData

/-- The read-only offsets are those of the read-only registers. -/
theorem readOnlyOffsets_eq_map : readOnlyOffsets = readOnlyRegs.map Reg.offset := by decide

/-- No read-only register has a write row of its own. -/
theorem ownWriteRow_of_readOnly : ∀ r ∈ readOnlyRegs, ownWriteRow r.offset = false := by decide

/-- A read-only register ignores a write (20_memory.md R51). -/
theorem writeReg_of_readOnly {r : Reg} (h : r ∈ readOnlyRegs) (v : Word) (s : State) : writeReg r v s = s := by
  refine writeReg_eq_self ?_ ?_ (fun b => ?_) v s
  all_goals
    rintro rfl
    simp [readOnlyRegs] at h

/-! Accesses outside the interface -/

/-- A host access of another size, or at an offset that is not word-aligned, stands for no operation (R52). -/
theorem decode_bus_rejects {a : Access} (h : a.size ≠ 4 ∨ a.off.toNat % 4 ≠ 0) : ∃ e, decode (.bus a) = .error e := by
  by_cases hsize : a.size = 4
  · have halign : wordAligned a.off = false :=
      Bool.eq_false_iff.2 ((wordAligned_iff a.off).not.2 (h.resolve_left (not_not_intro hsize)))
    exact ⟨.unaligned a.off, by simp [decode, decodeBus, hsize, halign]⟩
  · exact ⟨.accessSize a.size, by simp only [decode, decodeBus, ne_eq, hsize, not_false_eq_true, if_true]⟩

/-- The step at a turn that presents a unit which stands for no operation is refused. -/
theorem step_of_rejected {t : Turn} {s : State} {rest : List Turn} {u : Xfer} {e : Reject}
    (ht : s.turns = t :: rest) (hu : presented t { s with turns := rest } = some u) (he : decode u = .error e) :
    step s = .refused (Refusal.ofReject e) := by
  have hf : fetchNext s = .refuse (Refusal.ofReject e) := by
    rw [fetchNext, ht]
    cases t with
    | platformReset => cases hu
    | host _ | command _ | source | decoder | sink => simp only [fetchTurn, hu, he]
  rw [step, hf]

/-! The statements -/

/-- Settles O11: a read answers `readAt`, which does not see the value handed to the host, and the listed offsets are
those of the registers they list. -/
theorem regReadReturnsRegisterWithoutSideEffect : Obligations.RegReadReturnsRegisterWithoutSideEffect := by
  intro off s halign
  exact ⟨readAt off s, exec_regRead_of_aligned ((wordAligned_iff off).2 halign) s,
    fun off' => readAt_rdata off' _ s, fun x hx => readAt_of_mem_reads hx⟩

/-- Settles O14: a reserved offset has no register, CMD's register reads 0, and a read-only register stores nothing. -/
theorem reservedOffsetsReadZeroIgnoreWrites : Obligations.ReservedOffsetsReadZeroIgnoreWrites := by
  intro off v s halign
  refine ⟨fun hres => ?_, ?_, fun hro => ?_⟩
  · have hnone := ofOffset_of_reserved hres
    have haligned := (wordAligned_iff off).2 halign
    rw [exec_regRead_of_aligned haligned, exec_regWrite_of_aligned haligned (ownWriteRow_of_none hnone),
      readAt_of_none hnone, writeAt_of_none hnone]
    exact ⟨rfl, rfl⟩
  · rintro rfl
    exact exec_regRead_offset .cmd s
  · rw [readOnlyOffsets_eq_map, List.mem_map] at hro
    obtain ⟨r, hr, rfl⟩ := hro
    rw [exec_regWrite_offset (ownWriteRow_of_readOnly r hr), writeReg_of_readOnly hr]

/-- Settles O21: the decoder rejects such an access, and a rejected unit refuses its step. -/
theorem accessOutsideInterfaceRefused : Obligations.AccessOutsideInterfaceRefused := by
  intro s a rest ht hbad
  obtain ⟨e, he⟩ := decode_bus_rejects hbad
  exact ⟨_, step_of_rejected ht rfl he⟩

end Sys2Proof.Proofs
end

section
/-! The encodings (30_encoding.md R65 to R74): decoding and encoding agree in both directions, a reserved CMD word, and
the payload bits of OUT_DATA. -/

namespace Sys2Proof.Proofs

open Sys2Proof.Machine

/-! CMD words (30_encoding.md R67 to R69) -/

/-- The unit of a command carries its full word. -/
theorem encode_instr (op : CmdOp) : encode op.instr = .cmd op.word := by
  cases op <;> rfl

/-- Every command is an operation of the table. -/
theorem instr_wf (op : CmdOp) : op.instr.wf = true := by
  cases op <;> rfl

/-- A command's full word, seen at the command register, is that command. -/
theorem decode_word (op : CmdOp) : decode (.cmd op.word) = .ok op.instr :=
  congrArg Except.ok ((decodeCmd_eq_instr_iff op.word op).2 rfl)

/-- A CMD word outside the opcode list is reserved (R69). -/
theorem decodeCmd_of_not_defined {w : Word} (h : w ∉ definedCmdWords) : decodeCmd w = .cmdReserved w := by
  rw [decodeCmd, (decodeOp_eq_none_iff w).2 h]

/-- A CMD word is a command's full word or outside the opcode list. -/
theorem eq_word_or_not_defined (w : Word) : (∃ op : CmdOp, w = op.word) ∨ w ∉ definedCmdWords := by
  cases h : decodeOp w with
  | some op => exact .inl ⟨op, (decodeOp_eq_some_iff w op).1 h⟩
  | none => exact .inr ((decodeOp_eq_none_iff w).1 h)

/-- CMD_RESERVED is an operation of the table exactly on the words outside the opcode list. -/
theorem cmdReserved_wf_iff (w : Word) : (Instr.cmdReserved w).wf = true ↔ w ∉ definedCmdWords := by
  simp only [Instr.wf, Bool.not_eq_true', List.contains_eq_mem, decide_eq_false_iff_not]

/-! Host accesses (30_encoding.md R65; 20_memory.md R52) -/

/-- The operation that a write at an offset stands for: the row of its own that STATUS, CMD or NOISE_FLOOR has, and
REG_WRITE elsewhere (40_host_commands.md R80 to R83). -/
def writeRow (off : Offset) (v : Word) : Instr :=
  if off = 0x008#12 then .statusW1c v
  else if off = 0x00C#12 then .cmdWrite v
  else if off = 0x090#12 then .noiseFloorWrite v
  else .regWrite off v

/-- A 32-bit read at a word-aligned offset is REG_READ, whatever its data word. -/
theorem decode_read {off : Offset} (h : wordAligned off = true) (v : Word) :
    decode (.bus ⟨.read, 4, off, v⟩) = .ok (.regRead off) := by
  simp [decode, decodeBus, h]

/-- A 32-bit write at a word-aligned offset is the operation of that offset's row. -/
theorem decode_write {off : Offset} (h : wordAligned off = true) (v : Word) :
    decode (.bus ⟨.write, 4, off, v⟩) = .ok (writeRow off v) := by
  simp [decode, decodeBus, h, writeRow, apply_ite (Except.ok (ε := Reject))]

/-- A write at an offset without a row of its own is REG_WRITE. -/
theorem writeRow_of_not_own {off : Offset} (h : ownWriteRow off = false) (v : Word) :
    writeRow off v = .regWrite off v := by
  simp only [ownWriteRow, Bool.or_eq_false_iff, beq_eq_false_iff_ne, ne_eq] at h
  obtain ⟨⟨hstatus, hcmd⟩, hnoise⟩ := h
  rw [writeRow, if_neg hstatus, if_neg hcmd, if_neg hnoise]

/-- A write's operation is carried by that write, and is of the table where the offset is word-aligned. -/
theorem writeRow_spec {off : Offset} (halign : wordAligned off = true) (v : Word) :
    (writeRow off v).wf = true ∧ encode (writeRow off v) = .bus (Access.wr off v) := by
  cases hown : ownWriteRow off with
  | false => simp [writeRow_of_not_own hown, Instr.wf, halign, hown, encode]
  | true =>
    rcases (ownWriteRow_iff off).1 hown with rfl | rfl | rfl <;> exact ⟨rfl, rfl⟩

/-- A host access that stands for an operation is a 32-bit access at a word-aligned offset (20_memory.md R52). -/
theorem size_and_aligned_of_decode_bus {a : Access} {i : Instr} (h : decode (.bus a) = .ok i) :
    a.size = 4 ∧ wordAligned a.off = true := by
  by_contra hbad
  rw [wordAligned_iff, not_and_or] at hbad
  obtain ⟨e, he⟩ := decode_bus_rejects hbad
  rw [he] at h
  cases h

/-! The payload words (30_encoding.md R74) -/

/-- One more bit at the end of a sequence becomes the lowest bit of its number. -/
theorem bitsToNat_concat (bits : List Bool) (b : Bool) : bitsToNat (bits ++ [b]) = Nat.bit b (bitsToNat bits) := by
  rw [bitsToNat, List.foldl_append, Nat.bit_val]
  rfl

/-- The bits of a sequence's number, from the lowest up, are the sequence from its last bit to its first. -/
theorem testBit_bitsToNat (bits : List Bool) (k : Nat) : (bitsToNat bits).testBit k = bits.reverse.getD k false := by
  induction bits using List.reverseRecOn generalizing k with
  | nil => exact Nat.zero_testBit k
  | append_singleton bits b ih =>
    rw [bitsToNat_concat, List.reverse_concat]
    cases k with
    | zero => exact Nat.testBit_bit_zero b _
    | succ k => rw [Nat.testBit_bit_succ, ih, List.getD_cons_succ]

/-- Payload bit j is bit 511 - j of the packed payload, and the bits below the payload are 0. -/
theorem packPayload_getLsbD {bits : List Bool} (hlen : bits.length ≤ 512) {j : Nat} (hj : j < 512) :
    (packPayload bits).getLsbD (511 - j) = bits.getD j false := by
  have hlt : 511 - j < 512 := by omega
  rw [packPayload, BitVec.getLsbD_ofNat, Nat.testBit_mul_two_pow, testBit_bitsToNat, Config.maxPayload,
    List.getD_eq_getElem?_getD, List.getD_eq_getElem?_getD]
  by_cases hin : j < bits.length
  · have hlow : 512 - bits.length ≤ 511 - j := by omega
    have hback : bits.length - 1 - (511 - j - (512 - bits.length)) = j := by omega
    rw [List.getElem?_reverse (by omega), hback]
    simp [hlow, hlt]
  · have hhigh : ¬ 512 - bits.length ≤ 511 - j := by omega
    simp [hhigh, List.getElem?_eq_none (Nat.le_of_not_lt hin)]

/-- Word i of a record's payload holds the payload's bits 32 i to 32 i + 31, the first in bit 31. -/
theorem dataWord_getLsbD (r : Record) (i : Fin 16) {k : Nat} (hk : k < 32) :
    (r.dataWord i).getLsbD (31 - k) = r.payload.getLsbD (511 - (32 * i.val + k)) := by
  have hlt : 31 - k < 32 := by omega
  have hpos : 480 - 32 * i.val + (31 - k) = 511 - (32 * i.val + k) := by omega
  rw [Record.dataWord, BitVec.getLsbD_extractLsb', hpos, decide_eq_true hlt, Bool.true_and]

/-- With a record at the head of the FIFO, REG_READ of OUT_DATA answers that word of the record's payload (R79). -/
theorem exec_regRead_outData {s : State} {r : Record} {rest : List Record} (h : s.oq = r :: rest) (i : Fin 16) :
    exec (.regRead (BitVec.ofNat 12 (0x140 + 4 * i.val))) s = .next { s with rdata := r.dataWord i } := by
  have hread : readReg (.outData i) s = r.dataWord i := outView_of_cons h _
  exact hread ▸ exec_regRead_offset (.outData i) s

/-! The statements -/

/-- Settles O56: by cases on the operation; a command is its full word, a reserved word names none, and an access is the
row of its offset. -/
theorem decodeOfEncode : Obligations.DecodeOfEncode := by
  intro i hwf
  cases i with
  | nop | recompute | start | stop | armRn16 | armEpc | disarm | pop | clearCounters | softReset =>
    exact decode_word _
  | cmdReserved w => exact congrArg Except.ok (decodeCmd_of_not_defined ((cmdReserved_wf_iff w).1 hwf))
  | regRead off => exact decode_read hwf 0
  | regWrite off v =>
    obtain ⟨halign, hown⟩ := Bool.and_eq_true_iff.1 hwf
    exact (decode_write halign v).trans (congrArg _ (writeRow_of_not_own (by simpa using hown) v))
  | statusW1c v | cmdWrite v | noiseFloorWrite v => exact decode_write rfl v
  | sample _ | decode | diagDrain => rfl

/-- Settles O57: by cases on the unit; a CMD word is a command's or reserved, and an access has the interface's size and
alignment. -/
theorem encodeOfDecode : Obligations.EncodeOfDecode := by
  intro u i h
  cases u with
  | cmd w =>
    rcases eq_word_or_not_defined w with ⟨op, rfl⟩ | hres
    · obtain rfl : op.instr = i := Except.ok.inj ((decode_word op).symm.trans h)
      exact ⟨instr_wf op, .inl (encode_instr op)⟩
    · obtain rfl : .cmdReserved w = i := (decodeCmd_of_not_defined hres).symm.trans (Except.ok.inj h)
      exact ⟨(cmdReserved_wf_iff w).2 hres, .inl rfl⟩
  | bus a =>
    obtain ⟨hsize, halign⟩ := size_and_aligned_of_decode_bus h
    obtain ⟨dir, size, off, data⟩ := a
    obtain rfl : size = 4 := hsize
    cases dir with
    | read =>
      obtain rfl : .regRead off = i := Except.ok.inj ((decode_read halign data).symm.trans h)
      exact ⟨halign, .inr ⟨_, rfl, rfl, rfl⟩⟩
    | write =>
      obtain rfl : writeRow off data = i := Except.ok.inj ((decode_write halign data).symm.trans h)
      obtain ⟨hwf, henc⟩ := writeRow_spec halign data
      exact ⟨hwf, .inl henc⟩
  | sample _ | decodeStep | diagStep =>
    obtain rfl := Except.ok.inj h
    exact ⟨rfl, .inl rfl⟩

/-- Settles O16: position j is bit 31 - (j mod 32) of word j / 32, which is bit 511 - j of the packed payload. -/
theorem outDataHoldsPayloadMsbFirst : Obligations.OutDataHoldsPayloadMsbFirst := by
  intro s r rest bits hoq hpayload hlen j hj
  have hword : j / 32 < 16 := by omega
  refine ⟨_, exec_regRead_outData hoq ⟨j / 32, hword⟩, ?_⟩
  rw [dataWord_getLsbD r _ (Nat.mod_lt j (by decide)), Nat.div_add_mod, hpayload, packPayload_getLsbD hlen hj]

/-- Settles O9: a word outside the opcode list decodes to CMD_RESERVED, whose rule is CommandError alone. -/
theorem reservedCommandOnlySetsCmdErr : Obligations.ReservedCommandOnlySetsCmdErr := by
  intro w s hres
  exact ⟨decodeCmd_of_not_defined hres, rfl⟩

/-- Settles O58: each unit is the encoding of its operation, written out. -/
theorem writtenOutWordsDecode : Obligations.WrittenOutWordsDecode :=
  ⟨decodeOfEncode .stop rfl, decodeOfEncode .softReset rfl, decodeOfEncode (.cmdReserved 0x00000100) rfl,
    decodeOfEncode (.statusW1c 0x4) rfl, decodeOfEncode (.regWrite 0x060 9) rfl, decodeOfEncode (.regRead 0x090) rfl,
    decodeOfEncode (.sample 0x00020024) rfl⟩

end Sys2Proof.Proofs
end

section
/-! The host's commands and the writes of the register window (40_host_commands.md R80 to R94): what each command does
in each state, what RECOMPUTE latches, and what a write of a configuration register stores. -/

namespace Sys2Proof.Proofs

open Sys2Proof.Machine

/-! Commands by the state they run in (R82, R85 to R87) -/

/-- RECOMPUTE while running raises CommandError (R85). -/
theorem exec_recompute_of_running {s : State} (h : s.running = true) :
    exec .recompute s = .next { s with cmdErr := true } := by
  simp only [exec, execRecompute, h, if_true, raise_commandError]

/-- RECOMPUTE while halted latches a base configuration that passes V1 to V13 (R84, R85). -/
theorem exec_recompute_of_passes {s : State} (h : s.running = false) (hpass : ConfigPasses s.base) :
    exec .recompute s = .next { s with active := s.base, derived := s.base.derive, configOk := true } := by
  have hvalid : s.base.valid = true := (valid_iff_configPasses s.base).2 hpass
  simp only [exec, execRecompute, h, Bool.false_eq_true, if_false, State.latchConfig, hvalid, if_true]

/-- RECOMPUTE while halted raises ConfigurationInvalid on one that does not (R84, R85). -/
theorem exec_recompute_of_not_passes {s : State} (h : s.running = false) (hfail : ¬ ConfigPasses s.base) :
    exec .recompute s = .next { s with configOk := false, configErr := true } := by
  have hinvalid : ¬ s.base.valid = true := (valid_iff_configPasses s.base).not.2 hfail
  simp only [exec, execRecompute, h, Bool.false_eq_true, if_false, State.latchConfig, if_neg hinvalid,
    raise_configurationInvalid]

/-- START while halted with CONFIG_OK = 1 sets RUNNING (R86). -/
theorem exec_start_of_ready {s : State} (hhalt : s.running = false) (hok : s.configOk = true) :
    exec .start s = .next { s with running := true } := by
  simp only [exec, execStart, hhalt, hok, Bool.not_true, Bool.or_false, Bool.false_eq_true, if_false]

/-- START while running or with CONFIG_OK = 0 raises CommandError (R86). -/
theorem exec_start_of_not_ready {s : State} (h : s.running = true ∨ s.configOk = false) :
    exec .start s = .next { s with cmdErr := true } := by
  have hcond : (s.running || !s.configOk) = true := by simpa using h
  simp only [exec, execStart, hcond, if_true, raise_commandError]

/-- STOP while running discards what is in flight and halts (R87). -/
theorem exec_stop_of_running {s : State} (h : s.running = true) : exec .stop s = .next s.flush := by
  simp only [exec, execStop, h, if_true]

/-- STOP while halted changes nothing (R87). -/
theorem exec_stop_of_halted {s : State} (h : s.running = false) : exec .stop s = .next s := by
  simp only [exec, execStop, h, Bool.false_eq_true, if_false]

/-- NOISE_FLOOR_WRITE while running raises CommandError (R82). -/
theorem exec_noiseFloorWrite_of_running {s : State} (h : s.running = true) (v : Word) :
    exec (.noiseFloorWrite v) s = .next { s with cmdErr := true } := by
  simp only [exec, execNoiseFloorWrite, h, if_true, raise_commandError]

/-- NOISE_FLOOR_WRITE while halted stores the value (R82). -/
theorem exec_noiseFloorWrite_of_halted {s : State} (h : s.running = false) (v : Word) :
    exec (.noiseFloorWrite v) s = .next { s with nf := v } := by
  simp only [exec, execNoiseFloorWrite, h, Bool.false_eq_true, if_false]

/-! A command as the data word of a CMD write (R83) -/

/-- The rule of a command is what the command itself runs. -/
theorem execCommand_eq_exec (op : CmdOp) (s : State) : execCommand op s = exec op.instr s := by
  cases op <;> rfl

/-- A CMD write of a command's full word is that command. -/
theorem exec_cmdWrite_word (op : CmdOp) (s : State) : exec (.cmdWrite op.word) s = exec op.instr s :=
  (execCmdWrite_of_some ((decodeOp_eq_some_iff op.word op).2 rfl) s).trans (execCommand_eq_exec op s)

/-- A CMD write of a word outside the opcode list raises CommandError. -/
theorem exec_cmdWrite_of_not_defined {v : Word} (h : v ∉ definedCmdWords) (s : State) :
    exec (.cmdWrite v) s = .next { s with cmdErr := true } :=
  execCmdWrite_of_none ((decodeOp_eq_none_iff v).2 h) s

/-! The expectation and the sticky bits in STATUS (10_state.md R20) -/

/-- STATUS[17:16] reads the code of the expectation, whatever the queues hold (R20). -/
theorem statusWord_expect (s : State) : (statusWord s).extractLsb' 16 2 = s.expect.code := by
  rw [statusWord]
  repeat rw [BitVec.extractLsb'_append_eq_of_le (by decide)]
  exact BitVec.extractLsb'_append_eq_right

/-- A flag cleared where a bit is set. -/
theorem and_not_eq_ite (flag clear : Bool) : (flag && !clear) = if clear = true then false else flag := by
  cases clear <;> simp

/-! The derived values fit their registers (R84, R85; 10_state.md R35) -/

/-- A number below 2^32 is the value of its word. -/
theorem word_toNat_of_lt {n : Nat} (h : n < 2 ^ 32) : (BitVec.ofNat 32 n).toNat = n := by
  rw [BitVec.toNat_ofNat, Nat.mod_eq_of_lt h]

/-- SAMPLE_RATE holds ADC_RATE / DECIM. -/
theorem derive_sampleRate_toNat (b : BaseConfig) : b.derive.sampleRate.toNat = b.rate :=
  word_toNat_of_lt ((Nat.div_le_self _ _).trans_lt b.adcRate.isLt)

/-- SPS holds the samples per symbol. -/
theorem derive_sps_toNat (b : BaseConfig) : b.derive.sps.toNat = b.samplesPerSymbol :=
  word_toNat_of_lt (((Nat.div_le_self _ _).trans (Nat.div_le_self _ _)).trans_lt b.adcRate.isLt)

/-- V6 bounds the half bit. -/
theorem halfBitLen_le_of_passes {b : BaseConfig} (h : ConfigPasses b) : b.halfBitLen ≤ 32768 := by
  obtain ⟨-, -, -, -, -, hhalf, -⟩ := h
  exact hhalf

/-- HALF_BIT holds the half bit of a configuration that passes. -/
theorem derive_halfBit_toNat {b : BaseConfig} (h : ConfigPasses b) : b.derive.halfBit.toNat = b.halfBitLen :=
  word_toNat_of_lt ((halfBitLen_le_of_passes h).trans_lt (by decide))

/-- SYNC_WINDOW holds the search window of a configuration that passes: a register's value, or two half bits. -/
theorem derive_syncWindow_toNat {b : BaseConfig} (h : ConfigPasses b) : b.derive.syncWindow.toNat = b.window := by
  have hhalf := halfBitLen_le_of_passes h
  have hsearch := b.syncSearch.isLt
  refine word_toNat_of_lt ?_
  rw [BaseConfig.window]
  split <;> omega

/-! Base configuration registers: read and write (R80; 10_state.md R24 to R33) -/

/-- The width of a base configuration register's field (30_encoding.md R66). -/
def fieldWidth : BaseReg → Nat
  | .adcRate | .blf | .preambleChips | .syncSearch | .enterBias | .exitBias | .dwell | .minLen | .maxLen => 32
  | .collConfThr => 32
  | .decim | .crcPoly | .crcInit | .crcXorout | .enterScale | .exitScale | .collThr => 16
  | .lineCode => 2
  | .preambleLen => 6
  | .syncThr => 9
  | .epcBits => 10
  | .nfShift => 4

/-- The list of fields is the registers' offsets with their widths. -/
theorem configFields_eq_map : configFields = BaseReg.all.map fun r => (r.offset, fieldWidth r) := rfl

/-- The list of configuration reads is the registers' offsets with what a configuration holds there. -/
theorem configReads_eq_map_get (b : BaseConfig) : configReads b = BaseReg.all.map fun r => (r.offset, b.get r) := rfl

/-- Every base configuration register is in the list of them. -/
theorem mem_baseReg_all (r : BaseReg) : r ∈ BaseReg.all := by
  cases r <;> decide

/-- Its offset is in the list of fields. -/
theorem offset_mem_configFields (r : BaseReg) : r.offset ∈ configFields.map Prod.fst := by
  rw [configFields_eq_map, List.map_map]
  exact List.mem_map_of_mem (f := BaseReg.offset) (mem_baseReg_all r)

/-- No base configuration register has a write row of its own. -/
theorem ownWriteRow_baseReg (r : BaseReg) : ownWriteRow r.offset = false := by
  cases r <;> rfl

/-- What a field narrower than its register reads after a write. -/
theorem setWidth_setWidth_eq_ofNat (v : Word) (n : Nat) :
    (v.setWidth n).setWidth 32 = BitVec.ofNat 32 (v.toNat % 2 ^ n) :=
  BitVec.eq_of_toNat_eq (by simp)

/-- A written register reads the low bits of the value, up to its width (R80). -/
theorem get_set_self (b : BaseConfig) (r : BaseReg) (v : Word) :
    (b.set r v).get r = BitVec.ofNat 32 (v.toNat % 2 ^ fieldWidth r) := by
  have hfull : v = BitVec.ofNat 32 (v.toNat % 2 ^ 32) := by
    simpa only [BitVec.setWidth_eq] using setWidth_setWidth_eq_ofNat v 32
  cases r with
  | adcRate | blf | preambleChips | syncSearch | enterBias | exitBias | dwell | minLen | maxLen | collConfThr =>
    exact hfull
  | decim | crcPoly | crcInit | crcXorout | enterScale | exitScale | collThr | lineCode | preambleLen | syncThr
  | epcBits | nfShift => exact setWidth_setWidth_eq_ofNat v _

/-- A write touches its own register alone. -/
theorem get_set (b : BaseConfig) (r r' : BaseReg) (v : Word) :
    (b.set r v).get r' = if r' = r then (b.set r v).get r else b.get r' := by
  cases r <;> cases r' <;> rfl

/-- Every other register reads as before (R80). -/
theorem get_set_of_ne {r r' : BaseReg} (h : r' ≠ r) (b : BaseConfig) (v : Word) :
    (b.set r v).get r' = b.get r' := by
  rw [get_set, if_neg h]

/-- REG_WRITE at an offset that is neither IRQ_EN's, nor CTRL's, nor a base configuration register's stores nothing. -/
theorem writeAt_eq_self {off : Offset} (hirq : off ≠ Reg.irqEn.offset) (hctrl : off ≠ Reg.ctrl.offset)
    (hbase : ∀ b : BaseReg, off ≠ b.offset) (v : Word) (s : State) : writeAt off v s = s := by
  cases hr : Reg.ofOffset off with
  | none => exact writeAt_of_none hr v s
  | some r =>
    obtain rfl := offset_of_ofOffset hr
    rw [writeAt, hr]
    refine writeReg_eq_self ?_ ?_ (fun b => ?_) v s
    · rintro rfl
      exact hirq rfl
    · rintro rfl
      exact hctrl rfl
    · rintro rfl
      exact hbase b rfl

/-! The statements -/

/-- Settles O2: by RUNNING and by the check; the derived values of a configuration that passes fit their registers. -/
theorem recomputeChecksAndLatches : Obligations.RecomputeChecksAndLatches := by
  intro s
  refine ⟨exec_recompute_of_running, fun hhalt hpass => ?_, exec_recompute_of_not_passes⟩
  refine ⟨s.base.derive, exec_recompute_of_passes hhalt hpass, derive_sampleRate_toNat s.base,
    derive_sps_toNat s.base, ?_, ?_⟩
  · rw [derive_halfBit_toNat hpass, derive_sps_toNat]
    rfl
  · rw [derive_syncWindow_toNat hpass, derive_halfBit_toNat hpass]
    rfl

/-- Settles O10: a command's full word runs that command, and a word outside the opcode list raises CommandError. -/
theorem cmdWriteRunsTheNamedCommand : Obligations.CmdWriteRunsTheNamedCommand := by
  intro v s
  obtain ⟨t, ht⟩ := execCmdWrite_completes v s
  have hnamed (op : CmdOp) (hv : v = op.word) : exec op.instr s = .next t := by
    subst hv
    exact (exec_cmdWrite_word op s).symm.trans ht
  have hother (hv : v ∉ definedCmdWords) : t = { s with cmdErr := true } :=
    Host.Outcome.next.inj (ht.symm.trans (exec_cmdWrite_of_not_defined hv s))
  exact ⟨t, ht, hnamed .nop, hnamed .recompute, hnamed .start, hnamed .stop, hnamed .armRn16, hnamed .armEpc,
    hnamed .disarm, hnamed .pop, hnamed .clearCounters, hnamed .softReset, hother⟩

/-- Settles O17: the offset is a base configuration register's, which then reads the value's low bits, and a write
touches its own register alone. -/
theorem configWriteStoresField : Obligations.ConfigWriteStoresField := by
  intro off width v s hfield
  rw [configFields_eq_map, List.mem_map] at hfield
  obtain ⟨r, -, hr⟩ := hfield
  obtain ⟨rfl, rfl⟩ := Prod.mk.inj hr
  refine ⟨s.base.set r v, exec_regWrite_offset (r := .base r) (ownWriteRow_baseReg r) v s, ?_, ?_⟩
  · rw [configReads_eq_map_get, ← get_set_self s.base r v]
    exact List.mem_map_of_mem (mem_baseReg_all r)
  · intro off' x hne hx
    rw [configReads_eq_map_get, List.mem_map] at hx ⊢
    obtain ⟨r', hmem, hr'⟩ := hx
    obtain ⟨rfl, rfl⟩ := Prod.mk.inj hr'
    have hreg : r' ≠ r := fun heq => hne (congrArg BaseReg.offset heq)
    exact ⟨r', hmem, by rw [get_set_of_ne hreg]⟩

/-- Settles O18: IRQ_EN and CTRL by their registers; no other register that REG_WRITE stores is at such an offset. -/
theorem regWriteElsewhere : Obligations.RegWriteElsewhere := by
  intro off v s halign
  refine ⟨?_, ?_, fun hlist hfields => ?_⟩
  · rintro rfl
    exact exec_regWrite_offset (r := .irqEn) rfl v s
  · rintro rfl
    exact exec_regWrite_offset (r := .ctrl) rfl v s
  · simp only [List.mem_cons, List.not_mem_nil, or_false, not_or] at hlist
    obtain ⟨hstatus, hcmd, hirq, hctrl, hnoise⟩ := hlist
    have hown : ownWriteRow off = false := by
      rw [Bool.eq_false_iff, ne_eq, ownWriteRow_iff]
      rintro (h | h | h)
      exacts [hstatus h, hcmd h, hnoise h]
    have hbase (b : BaseReg) : off ≠ b.offset := by
      rintro rfl
      exact hfields (offset_mem_configFields b)
    rw [exec_regWrite_of_aligned ((wordAligned_iff off).2 halign) hown, writeAt_eq_self hirq hctrl hbase]

/-- Settles O1: NOP's rule is the identity, and its full word is 0. -/
theorem nopChangesNothing : Obligations.NopChangesNothing :=
  ⟨fun _ => rfl, fun w => decodeCmd_eq_instr_iff w .nop⟩

/-- Settles O3: by RUNNING and CONFIG_OK. -/
theorem startRunsOrIsRefused : Obligations.StartRunsOrIsRefused :=
  fun _ => ⟨exec_start_of_ready, exec_start_of_not_ready⟩

/-- Settles O4: by RUNNING. -/
theorem stopFlushesInFlightWork : Obligations.StopFlushesInFlightWork :=
  fun _ => ⟨exec_stop_of_running, exec_stop_of_halted⟩

/-- Settles O5: each command's rule is the record update, and STATUS[17:16] is the code of what it sets. -/
theorem armCommandsSetExpectation : Obligations.ArmCommandsSetExpectation :=
  fun _ => ⟨⟨rfl, statusWord_expect _⟩, ⟨rfl, statusWord_expect _⟩, ⟨rfl, statusWord_expect _⟩⟩

/-- Settles O6: by the output FIFO. -/
theorem popRemovesHeadRecord : Obligations.PopRemovesHeadRecord :=
  fun _ => ⟨fun _ _ => execPop_of_cons, execPop_of_empty⟩

/-- Settles O7: the rule sets the counters to `Counters.zero`. -/
theorem clearCountersZeroesAllNine : Obligations.ClearCountersZeroesAllNine :=
  fun _ => rfl

/-- Settles O8: the rule is `State.softReset`, written out. -/
theorem softResetKeepsConfiguration : Obligations.SoftResetKeepsConfiguration :=
  fun _ => rfl

/-- Settles O19: each sticky bit is kept where its bit of the value is 0 and cleared where it is 1. -/
theorem statusWriteClearsStickyBits : Obligations.StatusWriteClearsStickyBits := by
  intro v s
  simp only [exec, execStatusW1c, and_not_eq_ite]

/-- Settles O20: by RUNNING. -/
theorem noiseFloorWriteOnlyWhileHalted : Obligations.NoiseFloorWriteOnlyWhileHalted :=
  fun v _ => ⟨fun h => exec_noiseFloorWrite_of_halted h v, fun h => exec_noiseFloorWrite_of_running h v⟩

end Sys2Proof.Proofs
end

section
/-! The burst gate (41_gate.md R95 to R109): the statistic, the thresholds and the noise floor; what a sample does in
each state of the gate; and what a whole envelope of samples gives. -/

namespace Sys2Proof.Proofs

open Sys2Proof.Machine

/-! The detector statistic (R95) -/

/-- The square of a signed half is largest at its most negative value, and there alone. -/
theorem sq_toInt_bounds (x : BitVec 16) :
    x.toInt * x.toInt ≤ 2 ^ 30 ∧ (x.toInt * x.toInt = 2 ^ 30 ↔ x = 0x8000#16) := by
  have hlow : -32768 ≤ x.toInt := BitVec.le_toInt x
  have hhigh : x.toInt < 32768 := BitVec.toInt_lt
  have hmin : x = 0x8000#16 ↔ x.toInt = -32768 := (BitVec.toInt_inj (y := 0x8000#16)).symm
  refine ⟨by nlinarith, ?_⟩
  rw [hmin]
  refine ⟨fun h => ?_, fun h => by rw [h]; norm_num⟩
  have hfactors : (x.toInt + 32768) * (x.toInt - 32768) = 0 := by linarith
  rcases mul_eq_zero.1 hfactors with h | h <;> omega

/-- The statistic is the energy of the two halves, over the integers. -/
theorem mag_eq_energy (w : Word) :
    (mag w : Int)
      = (w.extractLsb' 0 16).toInt * (w.extractLsb' 0 16).toInt
        + (w.extractLsb' 16 16).toInt * (w.extractLsb' 16 16).toInt := by
  rw [mag, sampleI_eq, sampleQ_eq]
  exact Int.toNat_of_nonneg (add_nonneg (mul_self_nonneg _) (mul_self_nonneg _))

/-- The word whose two halves are both the most negative one. -/
theorem halves_eq_min_iff (w : Word) :
    w.extractLsb' 0 16 = 0x8000#16 ∧ w.extractLsb' 16 16 = 0x8000#16 ↔ w = 0x80008000 := by
  have hw := w.isLt
  simp only [← BitVec.toNat_inj, BitVec.extractLsb'_toNat, Nat.shiftRight_eq_div_pow, BitVec.toNat_ofNat,
    BitVec.ofNat_eq_ofNat]
  omega

/-- The statistic is at most 2^31 (R95). -/
theorem mag_le (w : Word) : mag w ≤ 2 ^ 31 := by
  have hmag := mag_eq_energy w
  have hI := (sq_toInt_bounds (w.extractLsb' 0 16)).1
  have hQ := (sq_toInt_bounds (w.extractLsb' 16 16)).1
  omega

/-- The statistic is 2^31 exactly where both squares are largest (R95). -/
theorem mag_eq_max_iff (w : Word) : mag w = 2 ^ 31 ↔ w = 0x80008000 := by
  have hmag := mag_eq_energy w
  obtain ⟨hI, hImax⟩ := sq_toInt_bounds (w.extractLsb' 0 16)
  obtain ⟨hQ, hQmax⟩ := sq_toInt_bounds (w.extractLsb' 16 16)
  rw [← halves_eq_min_iff, ← hImax, ← hQmax]
  omega

/-! The thresholds (R96 to R98) -/

/-- The model's trigger test. -/
theorem triggers_iff (s : State) (w : Word) : triggers s w = true ↔ AboveEnter s w := by
  rw [triggers, decide_eq_true_iff, enterThr, AboveEnter]

/-- The model's quiet test. -/
theorem quiet_iff (s : State) (w : Word) : quiet s w = true ↔ AtOrBelowExit s w := by
  rw [quiet, decide_eq_true_iff, exitThr, AtOrBelowExit]

/-- The two scales and the two biases are in order, so the thresholds are (R97). -/
theorem exitThr_lt_enterThr {s : State} (h : ConfigPasses s.active) : exitThr s < enterThr s := by
  obtain ⟨-, -, -, -, -, -, -, -, -, -, ⟨hscale, hbias⟩, -, -⟩ := h
  exact Nat.add_lt_add_of_le_of_lt (Nat.div_le_div_right (Nat.mul_le_mul_left _ hscale)) hbias

/-- A sample that triggers is not quiet (R98). -/
theorem not_atOrBelowExit_of_aboveEnter {s : State} {w : Word} (hpass : ConfigPasses s.active)
    (h : AboveEnter s w) : ¬ AtOrBelowExit s w :=
  Nat.not_le.2 (Nat.lt_trans (exitThr_lt_enterThr hpass) h)

/-- A quiet sample makes the quiet run one longer (R101). -/
theorem quietCount_of_quiet {s : State} {w : Word} (h : AtOrBelowExit s w) :
    quietCount s w = s.gate.gQuiet + 1 := if_pos h

/-- Any other sample ends the quiet run (R101). -/
theorem quietCount_of_not_quiet {s : State} {w : Word} (h : ¬ AtOrBelowExit s w) : quietCount s w = 0 := if_neg h

/-- The quiet count in terms of the model's own test. -/
theorem quietCount_eq_ite (s : State) (w : Word) :
    quietCount s w = if quiet s w = true then s.gate.gQuiet + 1 else 0 :=
  if_congr (quiet_iff s w).symm rfl rfl

/-! The noise floor (R99, R100) -/

/-- A floored quotient by a power of two lies between 0 and the dividend. -/
theorem ediv_two_pow_between (d : Int) (k : Nat) : min d 0 ≤ d / 2 ^ k ∧ d / 2 ^ k ≤ max d 0 := by
  have hpos : (0 : Int) < 2 ^ k := by positivity
  rcases le_or_gt 0 d with hd | hd
  · have hnonneg := Int.ediv_nonneg hd hpos.le
    have hle := Int.ediv_le_self (2 ^ k) hd
    omega
  · have hge : d ≤ d / 2 ^ k := (Int.le_ediv_iff_mul_le hpos).2 (by nlinarith)
    have hlt : d / 2 ^ k < 1 := (Int.ediv_lt_iff_lt_mul hpos).2 (by linarith)
    omega

/-- The new noise floor as an integer: it lies between the statistic and the old floor, so it fits its register. -/
theorem nfUpdate_toNat (k : Nat) {m : Nat} (nf : Word) (hm : m ≤ 2 ^ 31) :
    ((nfUpdate k m nf).toNat : Int) = (nf.toNat : Int) + ((m : Int) - (nf.toNat : Int)) / 2 ^ k := by
  have hnf := nf.isLt
  have hbetween := ediv_two_pow_between ((m : Int) - (nf.toNat : Int)) k
  rw [nfUpdate, BitVec.toNat_ofInt]
  generalize ((m : Int) - (nf.toNat : Int)) / 2 ^ k = inc at hbetween ⊢
  omega

/-! Finalizing (R106) -/

/-- A burst below MIN_LEN is discarded and counted. -/
theorem finalize_of_short {e : Index} {s : State} (f : Bool)
    (h : (e - s.gate.gStart).toNat < s.active.minLen.toNat) :
    s.finalize e f
      = { s with
          gate := Gate.idle
          counters := { s.counters with tooShort := saturated s.counters.tooShort } } := by
  rw [State.finalize, State.closeBurst, if_pos h, ← satInc_eq_saturated]
  rfl

/-- Any other burst is queued and counted, a forced one twice. -/
theorem finalize_of_minLen_le {e : Index} {s : State} (f : Bool)
    (h : s.active.minLen.toNat ≤ (e - s.gate.gStart).toNat) :
    s.finalize e f
      = { s with
          gate := Gate.idle
          bq := s.bq ++ [⟨s.gate.gStart, e, s.gate.gBuf.take (e - s.gate.gStart).toNat, s.gate.gHint, f⟩]
          counters :=
            { s.counters with
              bursts := saturated s.counters.bursts
              forced := if f = true then saturated s.counters.forced else s.counters.forced } } := by
  rw [State.finalize, State.closeBurst, if_neg (Nat.not_lt.2 h), ← satInc_eq_saturated, ← satInc_eq_saturated]
  cases f <;> rfl

/-! What an accepted sample does (R101) -/

/-- The gate accumulating from its first sample on, with the current expectation as its hint (R102). -/
def startBurst (i : Index) (w : Word) (s : State) : State :=
  { s with gate := { gst := .accumulating, gStart := i, gBuf := [w], gQuiet := 0, gHint := s.expect } }

/-- The gate with one more sample. -/
def appendSample (w : Word) (s : State) : State :=
  { s with gate := { s.gate with gBuf := s.gate.gBuf ++ [w], gQuiet := quietCount s w } }

/-- A burst that opens is finalized at once where MAX_LEN is 1 (R104). -/
theorem openBurst_eq (i : Index) (w : Word) (s : State) :
    s.openBurst i w
      = if s.active.maxLen.toNat = 1 then (startBurst i w s).finalize (i + 1) true else startBurst i w s := rfl

/-- The sample is appended, and then the dwell is tested before the length (R103 to R105). -/
theorem extendBurst_eq (i : Index) (w : Word) (s : State) :
    s.extendBurst i w
      = if quietCount s w = s.active.dwell.toNat then
          (appendSample w s).finalize (i + 1 - s.active.dwell.setWidth 64) false
        else if s.gate.gBuf.length + 1 = s.active.maxLen.toNat then (appendSample w s).finalize (i + 1) true
        else appendSample w s := by
  simp only [State.extendBurst, appendSample, quietCount_eq_ite, List.length_append, List.length_singleton]

/-- SAMPLE where the gate is enabled. -/
theorem exec_sample_of_enabled {s : State} (w : Word) (hrun : s.running = true) (hroom : s.bq.length ≠ 2) :
    exec (.sample w) s = .next (s.takeSample w) := by
  simp only [exec, execSample, (sampleEnabled_iff s).2 ⟨hrun, hroom⟩, if_true]

/-- SAMPLE in SEARCHING, not triggering, moves the noise floor (R99). -/
theorem exec_sample_of_not_aboveEnter {w : Word} {s : State} (hrun : s.running = true) (hroom : s.bq.length ≠ 2)
    (hgst : s.gate.gst = .searching) (h : ¬ AboveEnter s w) :
    exec (.sample w) s
      = .next
        { s with sampleIndex := s.sampleIndex + 1, nf := nfUpdate s.active.nfShift.toNat (mag w) s.nf } := by
  rw [exec_sample_of_enabled w hrun hroom]
  simp only [State.takeSample, hgst, (triggers_iff s w).not.2 h, Bool.false_eq_true, if_false]

/-- SAMPLE in SEARCHING, triggering, opens a burst, which is finalized at once where MAX_LEN is 1 (R101, R104). -/
theorem exec_sample_of_aboveEnter {w : Word} {s : State} (hrun : s.running = true) (hroom : s.bq.length ≠ 2)
    (hgst : s.gate.gst = .searching) (h : AboveEnter s w) :
    exec (.sample w) s
      = .next
        (let t := startBurst s.sampleIndex w { s with sampleIndex := s.sampleIndex + 1 }
        if s.active.maxLen.toNat = 1 then t.finalize (s.sampleIndex + 1) true else t) := by
  rw [exec_sample_of_enabled w hrun hroom]
  simp only [State.takeSample, hgst, (triggers_iff s w).2 h, if_true]
  exact congrArg Host.Outcome.next (openBurst_eq s.sampleIndex w { s with sampleIndex := s.sampleIndex + 1 })

/-- SAMPLE in ACCUMULATING appends the sample, and then tests the dwell before the length (R103 to R105). -/
theorem exec_sample_of_accumulating {w : Word} {s : State} (hrun : s.running = true) (hroom : s.bq.length ≠ 2)
    (hgst : s.gate.gst = .accumulating) :
    exec (.sample w) s
      = .next
        (let t := appendSample w { s with sampleIndex := s.sampleIndex + 1 }
        if quietCount s w = s.active.dwell.toNat then
          t.finalize (s.sampleIndex + 1 - s.active.dwell.setWidth 64) false
        else if s.gate.gBuf.length + 1 = s.active.maxLen.toNat then t.finalize (s.sampleIndex + 1) true
        else t) := by
  rw [exec_sample_of_enabled w hrun hroom]
  simp only [State.takeSample, hgst]
  exact congrArg Host.Outcome.next (extendBurst_eq s.sampleIndex w { s with sampleIndex := s.sampleIndex + 1 })

/-- SAMPLE in ACCUMULATING, where the dwell completes: the burst is finalized without its quiet run (R103, R105). -/
theorem exec_sample_of_dwell {w : Word} {s : State} (hrun : s.running = true) (hroom : s.bq.length ≠ 2)
    (hgst : s.gate.gst = .accumulating) (hdwell : quietCount s w = s.active.dwell.toNat) :
    exec (.sample w) s
      = .next ((appendSample w { s with sampleIndex := s.sampleIndex + 1 }).finalize
          (s.sampleIndex + 1 - s.active.dwell.setWidth 64) false) := by
  rw [exec_sample_of_accumulating hrun hroom hgst, if_pos hdwell]

/-- SAMPLE in ACCUMULATING, where the length reaches MAX_LEN and the dwell does not complete: all of the burst is
finalized, forced (R104). -/
theorem exec_sample_of_maxLen {w : Word} {s : State} (hrun : s.running = true) (hroom : s.bq.length ≠ 2)
    (hgst : s.gate.gst = .accumulating) (hdwell : quietCount s w ≠ s.active.dwell.toNat)
    (hmax : s.gate.gBuf.length + 1 = s.active.maxLen.toNat) :
    exec (.sample w) s
      = .next ((appendSample w { s with sampleIndex := s.sampleIndex + 1 }).finalize (s.sampleIndex + 1) true) := by
  rw [exec_sample_of_accumulating hrun hroom hgst, if_neg hdwell, if_pos hmax]

/-! The statements about one sample -/

/-- Settles O22: the two squares over the integers, each within 2^30. -/
theorem magIsEnergy : Obligations.MagIsEnergy :=
  fun w => ⟨mag_eq_energy w, mag_le w, mag_eq_max_iff w⟩

/-- Settles O23: the order of the thresholds leaves no statistic on both sides. -/
theorem enterThresholdAboveExit : Obligations.EnterThresholdAboveExit := by
  intro s hpass
  refine ⟨exitThr_lt_enterThr hpass, fun w htrig => ?_⟩
  rw [Bool.eq_false_iff, ne_eq, quiet_iff]
  exact not_atOrBelowExit_of_aboveEnter hpass ((triggers_iff s w).1 htrig)

/-- Settles O24: the increment lies between 0 and m − nf, and the statistic is at most 2^31. -/
theorem quietSearchingSampleMovesNoiseFloor : Obligations.QuietSearchingSampleMovesNoiseFloor := by
  intro w s hrun hroom hgst hbelow
  have hm := mag_le w
  have hbetween := ediv_two_pow_between ((mag w : Int) - (s.nf.toNat : Int)) s.active.nfShift.toNat
  have hnf := nfUpdate_toNat s.active.nfShift.toNat s.nf hm
  refine ⟨nfUpdate s.active.nfShift.toNat (mag w) s.nf, exec_sample_of_not_aboveEnter hrun hroom hgst hbelow, ?_,
    by omega, by omega, by omega⟩
  rw [Int.fdiv_eq_ediv_of_nonneg _ (by positivity), hnf]

/-- Settles O25: by MAX_LEN, and at MAX_LEN = 1 by MIN_LEN, for a burst of length (i + 1) − i = 1. -/
theorem risingEdgeOpensBurst : Obligations.RisingEdgeOpensBurst := by
  intro w s hrun hroom hgst habove
  have hone : (s.sampleIndex + 1 - s.sampleIndex).toNat = 1 := by rw [add_sub_cancel_left]; rfl
  rw [exec_sample_of_aboveEnter hrun hroom hgst habove]
  refine ⟨fun hmax => ?_, fun hmax hmin => ?_, fun hmax hmin => ?_⟩
  · rw [if_neg hmax]
    rfl
  · rw [if_pos hmax]
    refine congrArg Host.Outcome.next (Eq.trans (finalize_of_minLen_le true (hmin.trans hone.ge)) ?_)
    simp only [startBurst, hone, List.take_succ_cons, List.take_zero, if_true]
  · rw [if_pos hmax]
    exact congrArg Host.Outcome.next (finalize_of_short true (hone.trans_lt hmin))

/-- Settles O26: neither test of R101 holds, so the sample is appended. -/
theorem sampleInsideBurstAccumulates : Obligations.SampleInsideBurstAccumulates := by
  intro w s hrun hroom hgst hdwell hmax
  rw [exec_sample_of_accumulating hrun hroom hgst, if_neg hdwell, if_neg hmax]
  rfl

/-- Settles O27: the dwell is tested first, and the burst is long enough to be queued. -/
theorem dwellEndsBurst : Obligations.DwellEndsBurst := by
  intro w s hrun hroom hgst hdwell hmin
  rw [exec_sample_of_dwell hrun hroom hgst hdwell]
  exact congrArg Host.Outcome.next (finalize_of_minLen_le false hmin)

/-- Settles O28: the length is tested where the dwell did not complete, and the burst is long enough to be queued. -/
theorem maxLenForcesBurst : Obligations.MaxLenForcesBurst := by
  intro w s hrun hroom hgst hdwell hmax hmin
  rw [exec_sample_of_maxLen hrun hroom hgst hdwell hmax]
  exact congrArg Host.Outcome.next (finalize_of_minLen_le true hmin)

/-- Settles O29: by what finalizes the burst, which is too short to be queued. -/
theorem shortBurstIsDiscarded : Obligations.ShortBurstIsDiscarded := by
  rintro w s hrun hroom hgst (⟨hdwell, hshort⟩ | ⟨hdwell, hmax, hshort⟩)
  · rw [exec_sample_of_dwell hrun hroom hgst hdwell]
    exact congrArg Host.Outcome.next (finalize_of_short false hshort)
  · rw [exec_sample_of_maxLen hrun hroom hgst hdwell hmax]
    exact congrArg Host.Outcome.next (finalize_of_short true hshort)

/-! An envelope of samples (R108) -/

/-- The gate `buf.length` samples after the idle state `s`, in a burst that began at the first of them. -/
def inBurst (s : State) (buf : List Word) (q : Nat) : State :=
  { s with
    sampleIndex := s.sampleIndex + BitVec.ofNat 64 buf.length
    gate := ⟨.accumulating, s.sampleIndex, buf, q, s.expect⟩ }

/-- Feeding one word and then the others. -/
theorem feed_cons_of_next {w : Word} {s t : State} (h : exec (.sample w) s = .next t) (ws : List Word) :
    feed (w :: ws) s = feed ws t := by
  rw [feed, h]

/-- Feeding one sequence after another. -/
theorem feed_append (xs ys : List Word) (s : State) : feed (xs ++ ys) s = (feed xs s).bind (feed ys) := by
  induction xs generalizing s with
  | nil => rfl
  | cons w ws ih =>
    rw [List.cons_append, feed, feed]
    cases exec (.sample w) s with
    | next t => exact ih t
    | fault _ | refused _ => rfl

/-- A sample of the burst that finalizes nothing. -/
theorem exec_sample_inBurst {s : State} {w : Word} {buf : List Word} {q : Nat} (hrun : s.running = true)
    (hroom : s.bq.length ≠ 2) (hdwell : quietCount (inBurst s buf q) w ≠ s.active.dwell.toNat)
    (hmax : buf.length + 1 ≠ s.active.maxLen.toNat) :
    exec (.sample w) (inBurst s buf q)
      = .next (inBurst s (buf ++ [w]) (quietCount (inBurst s buf q) w)) := by
  have h := sampleInsideBurstAccumulates w (inBurst s buf q) hrun hroom rfl hdwell hmax
  rw [h, inBurst, inBurst, List.length_append, List.length_singleton, BitVec.ofNat_add, ← add_assoc]
  rfl

/-- Samples above the exit threshold, fewer than MAX_LEN, only make the burst longer. -/
theorem feed_inBurst_of_loud {s : State} {loud : List Word} {buf : List Word} (hrun : s.running = true)
    (hroom : s.bq.length ≠ 2) (hdwell : 0 < s.active.dwell.toNat) (hloud : ∀ w ∈ loud, ¬ AtOrBelowExit s w)
    (hmax : buf.length + loud.length < s.active.maxLen.toNat) :
    feed loud (inBurst s buf 0) = some (inBurst s (buf ++ loud) 0) := by
  induction loud generalizing buf with
  | nil => rw [List.append_nil, feed]
  | cons w ws ih =>
    obtain ⟨hw, hws⟩ := List.forall_mem_cons.1 hloud
    rw [List.length_cons] at hmax
    have hcount : quietCount (inBurst s buf 0) w = 0 := quietCount_of_not_quiet hw
    rw [feed_cons_of_next (exec_sample_inBurst hrun hroom (by omega) (by omega)), hcount,
      ih hws (by rw [List.length_append, List.length_singleton]; omega), List.append_assoc, List.singleton_append]

/-- Quiet samples that complete neither the dwell nor MAX_LEN make the burst and its quiet run longer. -/
theorem feed_inBurst_of_quiet {s : State} {tail : List Word} {buf : List Word} {q : Nat} (hrun : s.running = true)
    (hroom : s.bq.length ≠ 2) (hquiet : ∀ w ∈ tail, AtOrBelowExit s w)
    (hdwell : q + tail.length < s.active.dwell.toNat)
    (hmax : buf.length + tail.length < s.active.maxLen.toNat) :
    feed tail (inBurst s buf q) = some (inBurst s (buf ++ tail) (q + tail.length)) := by
  induction tail generalizing buf q with
  | nil => rw [List.append_nil, feed]; rfl
  | cons w ws ih =>
    obtain ⟨hw, hws⟩ := List.forall_mem_cons.1 hquiet
    rw [List.length_cons] at hmax hdwell
    have hcount : quietCount (inBurst s buf q) w = q + 1 := quietCount_of_quiet hw
    rw [feed_cons_of_next (exec_sample_inBurst hrun hroom (by omega) (by omega)), hcount,
      ih hws (by omega) (by rw [List.length_append, List.length_singleton]; omega), List.append_assoc,
      List.singleton_append, List.length_cons, add_assoc, add_comm 1]

/-- The first sample above the enter threshold opens the burst, where MAX_LEN is not 1. -/
theorem exec_sample_of_idle {s : State} {w : Word} (hrun : s.running = true) (hroom : s.bq.length ≠ 2)
    (hidle : s.gate = Gate.idle) (habove : AboveEnter s w) (hmax : s.active.maxLen.toNat ≠ 1) :
    exec (.sample w) s = .next (inBurst s [w] 0) :=
  (risingEdgeOpensBurst w s hrun hroom (by rw [hidle]; rfl) habove).1 hmax

/-- From the idle gate, samples above the enter threshold and then quiet ones are all in one burst, while neither the
dwell nor MAX_LEN completes. -/
theorem feed_envelope {s : State} {loud front : List Word} (hrun : s.running = true) (hroom : s.bq.length ≠ 2)
    (hidle : s.gate = Gate.idle) (hpass : ConfigPasses s.active) (hne : loud ≠ [])
    (hloud : ∀ w ∈ loud, AboveEnter s w) (hfront : ∀ w ∈ front, AtOrBelowExit s w)
    (hdwell : front.length < s.active.dwell.toNat)
    (hmax : loud.length + front.length < s.active.maxLen.toNat) :
    feed (loud ++ front) s = some (inBurst s (loud ++ front) front.length) := by
  obtain ⟨w, ws, rfl⟩ := List.exists_cons_of_ne_nil hne
  obtain ⟨hw, hws⟩ := List.forall_mem_cons.1 hloud
  rw [List.length_cons] at hmax
  have hlater (x : Word) (hx : x ∈ ws) : ¬ AtOrBelowExit s x :=
    not_atOrBelowExit_of_aboveEnter hpass (hws x hx)
  rw [List.cons_append, feed_cons_of_next (exec_sample_of_idle hrun hroom hidle hw (by omega)), feed_append,
    feed_inBurst_of_loud hrun hroom (by omega) hlater (by rw [List.length_singleton]; omega), Option.bind_some,
    feed_inBurst_of_quiet hrun hroom hfront (by omega)
      (by rw [List.length_append, List.length_singleton]; omega), zero_add]
  rfl

/-- The sample that completes the dwell after `n` loud samples puts the burst's end `n` samples after its start. -/
theorem dwell_end_eq (i : Index) (n q : Nat) {dwell : Word} (h : q + 1 = dwell.toNat) :
    i + BitVec.ofNat 64 (n + q) + 1 - dwell.setWidth 64 = i + BitVec.ofNat 64 n := by
  rw [← BitVec.ofNat_toNat, ← h, BitVec.ofNat_add, BitVec.ofNat_add]
  change i + (BitVec.ofNat 64 n + BitVec.ofNat 64 q) + 1 - (BitVec.ofNat 64 q + 1) = i + BitVec.ofNat 64 n
  abel

/-- The sample that completes the dwell finalizes the loud samples alone: they are queued, or discarded if they are
fewer than MIN_LEN. -/
theorem exec_sample_envelope_end {s : State} {loud front : List Word} {last : Word} (hrun : s.running = true)
    (hroom : s.bq.length ≠ 2) (hidle : s.gate = Gate.idle) (hlast : AtOrBelowExit s last)
    (hdwell : front.length + 1 = s.active.dwell.toNat) (hfits : loud.length < 2 ^ 64) :
    (s.active.minLen.toNat ≤ loud.length →
      exec (.sample last) (inBurst s (loud ++ front) front.length) = .next
        { s with
          sampleIndex := s.sampleIndex + BitVec.ofNat 64 (loud.length + (front.length + 1))
          bq := s.bq ++ [⟨s.sampleIndex, s.sampleIndex + BitVec.ofNat 64 loud.length, loud, s.expect, false⟩]
          counters := { s.counters with bursts := saturated s.counters.bursts } })
    ∧ (loud.length < s.active.minLen.toNat →
      exec (.sample last) (inBurst s (loud ++ front) front.length) = .next
        { s with
          sampleIndex := s.sampleIndex + BitVec.ofNat 64 (loud.length + (front.length + 1))
          counters := { s.counters with tooShort := saturated s.counters.tooShort } }) := by
  have hcount : quietCount (inBurst s (loud ++ front) front.length) last = s.active.dwell.toNat :=
    (quietCount_of_quiet (s := inBurst s (loud ++ front) front.length) hlast).trans hdwell
  have hindex : (inBurst s (loud ++ front) front.length).sampleIndex + 1
      = s.sampleIndex + BitVec.ofNat 64 (loud.length + (front.length + 1)) := by
    rw [inBurst, List.length_append, ← add_assoc loud.length, BitVec.ofNat_add _ 1, ← add_assoc s.sampleIndex]
    rfl
  have hend : (inBurst s (loud ++ front) front.length).sampleIndex + 1 - s.active.dwell.setWidth 64
      = s.sampleIndex + BitVec.ofNat 64 loud.length := by
    rw [inBurst, List.length_append, dwell_end_eq _ _ _ hdwell]
  have hspan : (s.sampleIndex + BitVec.ofNat 64 loud.length - s.sampleIndex).toNat = loud.length := by
    rw [add_sub_cancel_left, BitVec.toNat_ofNat, Nat.mod_eq_of_lt hfits]
  have hlen : ((inBurst s (loud ++ front) front.length).sampleIndex + 1 - s.active.dwell.setWidth 64
      - s.sampleIndex).toNat = loud.length := by rw [hend, hspan]
  have htake : (loud ++ front ++ [last]).take loud.length = loud := by rw [List.append_assoc, List.take_left]
  refine ⟨fun hmin => ?_, fun hshort => ?_⟩
  · refine (dwellEndsBurst last (inBurst s (loud ++ front) front.length) hrun hroom rfl hcount
      (hmin.trans hlen.ge)).trans ?_
    simp only [inBurst] at hindex hend ⊢
    rw [hend, hspan, htake, hindex, ← hidle]
  · refine (shortBurstIsDiscarded last (inBurst s (loud ++ front) front.length) hrun hroom rfl
      (.inl ⟨hcount, hlen.trans_lt hshort⟩)).trans ?_
    simp only [inBurst] at hindex ⊢
    rw [hindex, ← hidle]

/-- Settles O31: all samples but the last accumulate, and the last completes the dwell. -/
theorem envelopeGivesExactlyItsBurst : Obligations.EnvelopeGivesExactlyItsBurst := by
  intro s loud tail hrun hroom hidle hpass hne hloud hlen hquiet hmax
  have hdwell : 1 ≤ s.active.dwell.toNat := by
    obtain ⟨-, -, -, -, -, -, -, -, -, -, -, ⟨hdwell, -⟩, -⟩ := hpass
    exact hdwell
  have hmaxLt := s.active.maxLen.isLt
  obtain rfl | ⟨front, last, rfl⟩ := List.eq_nil_or_concat' tail
  · rw [List.length_nil] at hlen
    omega
  rw [List.length_append, List.length_singleton] at hlen ⊢
  rw [List.forall_mem_append] at hquiet
  obtain ⟨hfront, hlast⟩ := hquiet
  have hroom' : s.bq.length ≠ 2 := hroom.ne
  obtain ⟨hkept, hshort⟩ := exec_sample_envelope_end (loud := loud) hrun hroom' hidle
    (hlast last (List.mem_singleton_self last)) hlen (by omega)
  have hburst : feed (loud ++ (front ++ [last])) s = feed [last] (inBurst s (loud ++ front) front.length) := by
    rw [← List.append_assoc, feed_append,
      feed_envelope hrun hroom' hidle hpass hne hloud hfront (by omega) (by omega), Option.bind_some]
  rw [hburst]
  exact ⟨fun hmin => by rw [feed_cons_of_next (hkept hmin), feed],
    fun hmin => by rw [feed_cons_of_next (hshort hmin), feed]⟩

/-- A running gate with DWELL = 2, MIN_LEN = 1 and MAX_LEN = 2: MAX_LEN is reached inside the dwell (log entry 13). -/
def shortMaxLen : State :=
  { State.reset with
    running := true
    active :=
      { BaseConfig.reset with
        adcRate := 2
        blf := 1
        preambleLen := 1
        dwell := 2
        minLen := 1
        maxLen := 2 } }

/-- One loud sample and the first quiet one make a forced burst of two samples (R104). -/
theorem feed_shortMaxLen :
    (feed [2, 0, 0] shortMaxLen).map (fun t => t.bq.map Burst.samples) = some [[2, 0]] := by decide

/-- Refutes O32: with MAX_LEN = 2 and DWELL = 2, one loud sample gives a burst of two samples, not one. -/
theorem not_envelopeLengthIsExactUpToMaxLen : ¬ Obligations.EnvelopeLengthIsExactUpToMaxLen := by
  intro h
  have hpass : ConfigPasses shortMaxLen.active := by unfold ConfigPasses; decide
  have hloud : AboveEnter shortMaxLen 2 := (triggers_iff _ _).1 (by decide)
  have hquiet : AtOrBelowExit shortMaxLen 0 := (quiet_iff _ _).1 (by decide)
  obtain ⟨t, b, hfeed, hbq, hlen⟩ :=
    h shortMaxLen [2] [0, 0] rfl (by decide) rfl hpass (List.forall_mem_singleton.2 hloud) (by decide)
      (List.forall_mem_cons.2 ⟨hquiet, List.forall_mem_singleton.2 hquiet⟩) (by decide) (by decide)
  have hforced := feed_shortMaxLen
  rw [show ([2, 0, 0] : List Word) = [2] ++ [0, 0] from rfl, hfeed, Option.map_some, hbq] at hforced
  have hsamples : b.samples = [2, 0] := by simpa [shortMaxLen, State.reset] using hforced
  rw [hsamples] at hlen
  exact absurd hlen (by decide)

/-! What the gate depends on (R109) -/

section SameForGate

variable {s u : State} (h : SameForGate s u)
include h

/-- The trigger is the same in both. -/
theorem aboveEnter_iff_of_same (w : Word) : AboveEnter s w ↔ AboveEnter u w := by
  obtain ⟨hscale, -⟩ := h.scales
  obtain ⟨hbias, -⟩ := h.biases
  simp only [AboveEnter, h.nf, hscale, hbias]

/-- The quiet count is the same in both. -/
theorem quietCount_eq_of_same (w : Word) : quietCount s w = quietCount u w := by
  obtain ⟨-, hscale⟩ := h.scales
  obtain ⟨-, hbias⟩ := h.biases
  simp only [quietCount, h.nf, hscale, hbias, h.gQuiet]

/-- The gate is enabled in both or in neither. -/
theorem sampleEnabled_eq_of_same : sampleEnabled s = sampleEnabled u := by
  have hlen : s.bq.length = u.bq.length := by simpa using congrArg List.length h.bursts
  simp only [sampleEnabled, burstQFull, h.running, hlen]

/-- Advancing the index keeps the agreement. -/
theorem sameForGate_advance :
    SameForGate { s with sampleIndex := s.sampleIndex + 1 } { u with sampleIndex := u.sampleIndex + 1 } :=
  { h with sampleIndex := congrArg (· + 1) h.sampleIndex }

/-- Opening a burst keeps the agreement, whatever the expectations are. -/
theorem sameForGate_startBurst (i : Index) (w : Word) : SameForGate (startBurst i w s) (startBurst i w u) :=
  { h with gst := rfl, gStart := rfl, gBuf := rfl, gQuiet := rfl }

/-- Appending a sample keeps the agreement. -/
theorem sameForGate_appendSample (w : Word) : SameForGate (appendSample w s) (appendSample w u) :=
  { h with gBuf := congrArg (· ++ [w]) h.gBuf, gQuiet := quietCount_eq_of_same h w }

/-- Finalizing keeps the agreement, whatever the hints are. -/
theorem sameForGate_finalize (e : Index) (f : Bool) : SameForGate (s.finalize e f) (u.finalize e f) := by
  obtain ⟨hbursts, htooShort, hforced⟩ := h.gateCounters
  obtain ⟨hminLen, -⟩ := h.lengths
  by_cases hshort : (e - s.gate.gStart).toNat < s.active.minLen.toNat
  · have hshort' := hshort
    rw [h.gStart, hminLen] at hshort'
    rw [finalize_of_short f hshort, finalize_of_short f hshort']
    exact
      { h with
        gst := rfl, gStart := rfl, gBuf := rfl, gQuiet := rfl
        gateCounters := ⟨hbursts, congrArg saturated htooShort, hforced⟩ }
  · have hmin := Nat.le_of_not_lt hshort
    have hmin' := hmin
    rw [h.gStart, hminLen] at hmin'
    rw [finalize_of_minLen_le f hmin, finalize_of_minLen_le f hmin']
    exact
      { h with
        gst := rfl, gStart := rfl, gBuf := rfl, gQuiet := rfl
        bursts := by simp only [List.map_append, List.map_cons, List.map_nil, h.bursts, h.gStart, h.gBuf]
        gateCounters := ⟨congrArg saturated hbursts, htooShort, by simp only [hforced]⟩ }

end SameForGate

/-- Settles O33: both gates take the same branch of R101, and each branch keeps the agreement. -/
theorem gateIgnoresExpectationAndDecoder : Obligations.GateIgnoresExpectationAndDecoder := by
  intro w s u h
  obtain ⟨-, hmaxLen⟩ := h.lengths
  cases hen : sampleEnabled s with
  | false =>
    have hen' : sampleEnabled u = false := sampleEnabled_eq_of_same h ▸ hen
    exact ⟨s, u, exec_sample_of_not_enabled w hen, exec_sample_of_not_enabled w hen', h⟩
  | true =>
    obtain ⟨hrun, hroom⟩ := (sampleEnabled_iff s).1 hen
    obtain ⟨hrun', hroom'⟩ := (sampleEnabled_iff u).1 (sampleEnabled_eq_of_same h ▸ hen)
    cases hgst : s.gate.gst with
    | searching =>
      have hgst' : u.gate.gst = .searching := h.gst ▸ hgst
      by_cases habove : AboveEnter s w
      · refine ⟨_, _, exec_sample_of_aboveEnter hrun hroom hgst habove,
          exec_sample_of_aboveEnter hrun' hroom' hgst' ((aboveEnter_iff_of_same h w).1 habove), ?_⟩
        have hstart := sameForGate_startBurst (sameForGate_advance h) s.sampleIndex w
        rw [← h.sampleIndex] at hstart ⊢
        rw [← hmaxLen]
        dsimp only
        split
        · exact sameForGate_finalize hstart (s.sampleIndex + 1) true
        · exact hstart
      · refine ⟨_, _, exec_sample_of_not_aboveEnter hrun hroom hgst habove,
          exec_sample_of_not_aboveEnter hrun' hroom' hgst' ((aboveEnter_iff_of_same h w).not.1 habove), ?_⟩
        exact { sameForGate_advance h with nf := by simp only [h.nf, h.nfShift] }
    | accumulating =>
      refine ⟨_, _, exec_sample_of_accumulating hrun hroom hgst,
        exec_sample_of_accumulating hrun' hroom' (h.gst ▸ hgst), ?_⟩
      have happend := sameForGate_appendSample (sameForGate_advance h) w
      rw [← h.sampleIndex] at happend ⊢
      rw [← quietCount_eq_of_same h w, ← h.dwell, ← h.gBuf, ← hmaxLen]
      dsimp only
      split
      · exact sameForGate_finalize happend _ false
      · split
        · exact sameForGate_finalize happend _ true
        · exact happend

end Sys2Proof.Proofs
end

section
/-! The symbol synchronizer (42_sync_demod.md R112 to R120, R128): chip sums and correlations as sums, the search for
the peak, and what negating a signal changes. -/

namespace Sys2Proof.Proofs

open Sys2Proof.Machine

/-! Chip sums (R112 to R114) -/

/-- The signal as one map over the samples: the model's lift of the energies to the integers is a map too. -/
theorem demodSignal_eq_map (xs : List Word) :
    demodSignal xs = xs.map fun w => (mag w : Int) - (((xs.map mag).sum / xs.length : Nat) : Int) := by
  simp only [demodSignal, bind, pure, ← List.map_eq_flatMap, List.map_map, List.length_map, Function.comp_def]

/-- The signal has a value for each sample. -/
theorem demodSignal_length (xs : List Word) : (demodSignal xs).length = xs.length := by
  rw [demodSignal_eq_map, List.length_map]

/-- The value for a sample: its energy without the floor of the mean (R112). -/
theorem demodSignal_getElem? {xs : List Word} {i : Nat} {w : Word} (h : xs[i]? = some w) :
    (demodSignal xs)[i]? = some ((mag w : Int) - (((xs.map mag).sum : Nat) : Int).fdiv xs.length) := by
  rw [Int.fdiv_eq_ediv_of_nonneg _ (Int.natCast_nonneg _), ← Int.natCast_ediv, demodSignal_eq_map, List.getElem?_map,
    h, Option.map_some]

/-- The two cases with weight +1 in one condition (R113). -/
theorem chipWeight_eq (lc sps i : Nat) : chipWeight lc sps i = if lc = 0 ∨ i % sps < sps / 2 then 1 else -1 := by
  by_cases hlc : lc = 0
  · simp only [chipWeight, hlc, true_or, if_true]
  · simp only [chipWeight, hlc, false_or, if_false]

/-- A chip weight is a sign. -/
theorem chipWeight_mul_self (lc sps i : Nat) : chipWeight lc sps i * chipWeight lc sps i = 1 := by
  rw [chipWeight_eq]
  split <;> rfl

/-- A chip has a weight for each of its Hb samples. -/
@[simp] theorem weights_length (t : Timing) : t.weights.length = t.halfBit := by
  rw [Timing.weights, List.length_map, List.length_range]

/-- A chip sum inside the signal is the weighted sum of its Hb values (R114). -/
theorem chip_eq_sum {t : Timing} {sig : List Int} {x : Nat} (h : x + t.halfBit ≤ sig.length) :
    t.chip sig x = ∑ i ∈ Finset.range t.halfBit, sig.getD (x + i) 0 * chipWeight t.lineCode t.sps i := by
  have hterms : List.zipWith (· * ·) (sig.drop x) t.weights
      = (List.range t.halfBit).map fun i => sig.getD (x + i) 0 * chipWeight t.lineCode t.sps i := by
    refine List.ext_getElem (by simp; omega) fun i _ hi => ?_
    have hlt : x + i < sig.length := by simp at hi; omega
    simp only [Timing.weights, List.getElem_zipWith, List.getElem_drop, List.getElem_map, List.getElem_range,
      List.getD_eq_getElem _ _ hlt]
  rw [Timing.chip, hterms]
  rfl

/-! Correlation and amplitude (R116, R118) -/

/-- The sign of chip j is bit 31 − j of PREAMBLE_CHIPS (R116). -/
theorem preambleChip_eq {t : Timing} {j : Nat} (hj : j < 32) :
    t.preambleChip j = if t.preambleChips.getLsbD (31 - j) = true then 1 else -1 := by
  rw [Timing.preambleChip, BitVec.getMsbD_eq_getLsbD, decide_eq_true hj, Bool.true_and]

/-- corr(τ) as a sum over the preamble's chips. -/
theorem corr_eq_sum (t : Timing) (sig : List Int) (tau : Nat) :
    t.corr sig tau = ∑ j ∈ Finset.range t.preambleLen, t.preambleChip j * t.chip sig (tau + j * t.halfBit) := by
  rw [Timing.corr, Timing.preambleSums, List.zipWith_map, List.zipWith_self]
  rfl

/-- A(τ) as a sum over the preamble's chips. -/
theorem amplitude_eq_sum (t : Timing) (sig : List Int) (tau : Nat) :
    t.amplitude sig tau = ∑ j ∈ Finset.range t.preambleLen, (t.chip sig (tau + j * t.halfBit)).natAbs := by
  rw [Timing.amplitude, Timing.preambleSums, List.map_map]
  rfl

/-- A preamble chip is a sign. -/
theorem preambleChip_natAbs (t : Timing) (j : Nat) : (t.preambleChip j).natAbs = 1 := by
  rw [Timing.preambleChip]
  split <;> rfl

/-- The triangle inequality over the preamble's chips. -/
theorem corr_natAbs_le_amplitude (t : Timing) (sig : List Int) (tau : Nat) :
    (t.corr sig tau).natAbs ≤ t.amplitude sig tau := by
  rw [corr_eq_sum, amplitude_eq_sum]
  refine (Int.natAbs_sum_le _ _).trans_eq (Finset.sum_congr rfl fun j _ => ?_)
  rw [Int.natAbs_mul, preambleChip_natAbs, one_mul]

/-! The search for the peak (R117, R119) -/

/-- The better of the best peak so far and the peak at a later phase: the earlier one among equals (R119). -/
def betterPeak (t : Timing) (sig : List Int) (best : Peak) (tau : Nat) : Peak :=
  if best.corr.natAbs < (t.corr sig tau).natAbs then t.peakAt sig tau else best

/-- The search keeps the better peak, phase after phase. -/
theorem findPeak_of_cons {t : Timing} {sig : List Int} {tau : Nat} {rest : List Nat}
    (h : t.candidates sig.length = tau :: rest) :
    t.findPeak sig = some (rest.foldl (betterPeak t sig) (t.peakAt sig tau)) := by
  rw [Timing.findPeak, h]
  rfl

/-- There is no peak without a candidate. -/
theorem findPeak_of_nil {t : Timing} {sig : List Int} (h : t.candidates sig.length = []) : t.findPeak sig = none := by
  rw [Timing.findPeak, h]

/-- There is no peak exactly when there is no candidate. -/
theorem findPeak_eq_none_iff (t : Timing) (sig : List Int) :
    t.findPeak sig = none ↔ t.candidates sig.length = [] := by
  refine ⟨fun h => ?_, findPeak_of_nil⟩
  cases hc : t.candidates sig.length with
  | nil => rfl
  | cons tau rest => simp [findPeak_of_cons hc] at h

/-- A peak at one of the phases seen, above every earlier one and not below any other. -/
structure FirstLargest (t : Timing) (sig : List Int) (seen : List Nat) (p : Peak) : Prop where
  mem : p.offset ∈ seen
  eq_peakAt : p = t.peakAt sig p.offset
  le : ∀ tau ∈ seen, (t.corr sig tau).natAbs ≤ p.corr.natAbs
  lt : ∀ tau ∈ seen, tau < p.offset → (t.corr sig tau).natAbs < p.corr.natAbs

/-- The only phase seen is the best one. -/
theorem firstLargest_singleton (t : Timing) (sig : List Int) (tau : Nat) :
    FirstLargest t sig [tau] (t.peakAt sig tau) where
  mem := List.mem_singleton_self tau
  eq_peakAt := rfl
  le := List.forall_mem_singleton.2 le_rfl
  lt := List.forall_mem_singleton.2 fun hlt => absurd hlt (lt_irrefl tau)

/-- The better peak is the first largest once one more, later, phase has been seen. -/
theorem FirstLargest.betterPeak {t : Timing} {sig : List Int} {seen : List Nat} {p : Peak} {tau : Nat}
    (h : FirstLargest t sig seen p) (hlater : ∀ x ∈ seen, x < tau) :
    FirstLargest t sig (seen ++ [tau]) (betterPeak t sig p tau) := by
  unfold Proofs.betterPeak
  split
  next hbetter =>
    have hbelow : ∀ x ∈ seen, (t.corr sig x).natAbs < (t.corr sig tau).natAbs :=
      fun x hx => (h.le x hx).trans_lt hbetter
    exact
      { mem := List.mem_append_right _ (List.mem_singleton_self tau)
        eq_peakAt := rfl
        le := List.forall_mem_append.2 ⟨fun x hx => (hbelow x hx).le, List.forall_mem_singleton.2 le_rfl⟩
        lt := List.forall_mem_append.2
          ⟨fun x hx _ => hbelow x hx, List.forall_mem_singleton.2 fun hlt => absurd hlt (lt_irrefl tau)⟩ }
  next hnot =>
    exact
      { mem := List.mem_append_left _ h.mem
        eq_peakAt := h.eq_peakAt
        le := List.forall_mem_append.2 ⟨h.le, List.forall_mem_singleton.2 (Nat.le_of_not_lt hnot)⟩
        lt := List.forall_mem_append.2
          ⟨h.lt, List.forall_mem_singleton.2 fun hlt => absurd hlt (hlater _ h.mem).not_gt⟩ }

/-- Folding over later phases in increasing order keeps the first largest peak of all phases seen. -/
theorem FirstLargest.foldl {t : Timing} {sig : List Int} {seen rest : List Nat} {p : Peak}
    (h : FirstLargest t sig seen p) (hsorted : (seen ++ rest).Pairwise (· < ·)) :
    FirstLargest t sig (seen ++ rest) (rest.foldl (Proofs.betterPeak t sig) p) := by
  induction rest generalizing seen p with
  | nil => simpa using h
  | cons tau rest ih =>
    have hlater : ∀ x ∈ seen, x < tau := fun x hx =>
      (List.pairwise_append.1 hsorted).2.2 x hx tau List.mem_cons_self
    rw [List.append_cons] at hsorted ⊢
    exact ih (h.betterPeak hlater) hsorted

/-- The search finds the first largest peak of its candidates. -/
theorem findPeak_firstLargest {t : Timing} {sig : List Int} {p : Peak} (h : t.findPeak sig = some p) :
    FirstLargest t sig (t.candidates sig.length) p := by
  have hsorted : (t.candidates sig.length).Pairwise (· < ·) := List.pairwise_lt_range
  cases hc : t.candidates sig.length with
  | nil => simp [findPeak_of_nil hc] at h
  | cons tau rest =>
    rw [hc] at hsorted
    rw [findPeak_of_cons hc, Option.some_inj] at h
    rw [← h]
    exact (firstLargest_singleton t sig tau).foldl hsorted

/-! Negating the signal (R128) -/

/-- Every value of a signal negated. -/
def negSignal (sig : List Int) : List Int := sig.map (fun v => -v)

/-- A peak with the other sign. -/
def negPeak (p : Peak) : Peak := { p with corr := -p.corr }

/-- Negating keeps the number of samples. -/
@[simp] theorem negSignal_length (sig : List Int) : (negSignal sig).length = sig.length := List.length_map _

/-- A chip sum is linear in the signal. -/
theorem chip_negSignal (t : Timing) (sig : List Int) (x : Nat) : t.chip (negSignal sig) x = -t.chip sig x := by
  rw [Timing.chip, Timing.chip, List.sum_neg, List.map_zipWith, negSignal, ← List.map_drop, List.zipWith_map_left]
  simp only [neg_mul]

/-- So is corr(τ). -/
theorem corr_negSignal (t : Timing) (sig : List Int) (tau : Nat) : t.corr (negSignal sig) tau = -t.corr sig tau := by
  simp only [corr_eq_sum, chip_negSignal, mul_neg, Finset.sum_neg_distrib]

/-- A(τ) takes absolute values. -/
theorem amplitude_negSignal (t : Timing) (sig : List Int) (tau : Nat) :
    t.amplitude (negSignal sig) tau = t.amplitude sig tau := by
  simp only [amplitude_eq_sum, chip_negSignal, Int.natAbs_neg]

/-- The peak at a phase only changes its sign. -/
theorem peakAt_negSignal (t : Timing) (sig : List Int) (tau : Nat) :
    t.peakAt (negSignal sig) tau = negPeak (t.peakAt sig tau) := by
  simp only [Timing.peakAt, negPeak, corr_negSignal, amplitude_negSignal]

/-- Which of two peaks is better does not depend on their signs. -/
theorem betterPeak_negSignal (t : Timing) (sig : List Int) (best : Peak) (tau : Nat) :
    betterPeak t (negSignal sig) (negPeak best) tau = negPeak (betterPeak t sig best tau) := by
  have hbest : (negPeak best).corr.natAbs = best.corr.natAbs := Int.natAbs_neg best.corr
  rw [betterPeak, betterPeak, hbest, corr_negSignal, Int.natAbs_neg, peakAt_negSignal, apply_ite negPeak]

/-- The search finds the same peak with the other sign. -/
theorem findPeak_negSignal (t : Timing) (sig : List Int) :
    t.findPeak (negSignal sig) = (t.findPeak sig).map negPeak := by
  cases hc : t.candidates sig.length with
  | nil =>
    rw [findPeak_of_nil hc, findPeak_of_nil (by rw [negSignal_length, hc])]
    rfl
  | cons tau rest =>
    rw [findPeak_of_cons hc, findPeak_of_cons (by rw [negSignal_length, hc]), Option.map_some, peakAt_negSignal,
      List.foldl_hom negPeak (betterPeak_negSignal t sig)]

/-- The sign of a nonzero chip sum follows the sum; sgn(0) = +1 is why zero is left out (R115, R128). -/
theorem sgn_neg {h : Int} (hne : h ≠ 0) : sgn (-h) = -sgn h := by
  unfold sgn
  split <;> split <;> omega

/-- Whether two nonzero chip sums have different signs does not change when both are negated. -/
theorem sgn_neg_ne_iff {x y : Int} (hx : x ≠ 0) (hy : y ≠ 0) : sgn (-x) ≠ sgn (-y) ↔ sgn x ≠ sgn y := by
  rw [sgn_neg hx, sgn_neg hy, ne_eq, neg_inj]

/-- The bit decided from negated nonzero chip sums (R124 to R126). -/
theorem bit_neg (lc : Nat) {d : Decision} (h1 : d.h1 ≠ 0) (h2 : d.h2 ≠ 0) :
    Decision.bit lc ⟨-d.h1, -d.h2⟩ = d.bit lc := by
  simp only [Decision.bit, Decision.midTransition, sgn_neg_ne_iff h1 h2]

/-- The test of the boundary between negated nonzero chip sums (R137). -/
theorem boundaryViolated_neg (lc : Nat) {a b : Decision} (ha1 : a.h1 ≠ 0) (ha2 : a.h2 ≠ 0) (hb1 : b.h1 ≠ 0)
    (hb2 : b.h2 ≠ 0) :
    boundaryViolated lc ⟨-a.h1, -a.h2⟩ ⟨-b.h1, -b.h2⟩ = boundaryViolated lc a b := by
  simp only [boundaryViolated, sgn_neg_ne_iff ha2 hb1, bit_neg lc ha1 ha2, bit_neg lc hb1 hb2]

/-! The statements about the synchronizer -/

/-- Settles O34: the mean divides naturals, and a chip sum inside the signal uses all Hb weights. -/
theorem chipSumsOfDemodSignal : Obligations.ChipSumsOfDemodSignal := by
  refine ⟨fun xs i w h => ⟨demodSignal_length xs, demodSignal_getElem? h⟩, fun t sig x h => ?_⟩
  simp only [chip_eq_sum h, chipWeight_eq]

/-- Settles O35: both as sums over the preamble's chips, with the triangle inequality. -/
theorem correlationBoundedByAmplitude : Obligations.CorrelationBoundedByAmplitude := by
  intro t sig tau hlen
  refine ⟨(corr_eq_sum t sig tau).trans (Finset.sum_congr rfl fun j hj => ?_), amplitude_eq_sum t sig tau,
    corr_natAbs_le_amplitude t sig tau⟩
  rw [preambleChip_eq ((Finset.mem_range.1 hj).trans_le hlen)]

/-- Settles O36: the fold over the candidates keeps the first largest peak of the phases it has seen. -/
theorem syncPicksFirstLargestPeak : Obligations.SyncPicksFirstLargestPeak := by
  intro t sig
  refine ⟨?_, fun p hp => ?_⟩
  · simp only [findPeak_eq_none_iff, List.eq_nil_iff_forall_not_mem, mem_candidates]
  · obtain ⟨hmem, heq, hle, hlt⟩ := findPeak_firstLargest hp
    simp only [mem_candidates] at hmem hle hlt
    obtain ⟨hwindow, hfits⟩ := hmem
    exact ⟨hwindow, hfits, congrArg Peak.corr heq, congrArg Peak.amp heq,
      fun tau hw hf => ⟨hle tau ⟨hw, hf⟩, hlt tau ⟨hw, hf⟩⟩⟩

/-- Settles O37: chip sums are linear in the signal, and nothing else depends on more than nonzero signs or sizes. -/
theorem invertedSignalDecodesAlike : Obligations.InvertedSignalDecodesAlike :=
  ⟨chip_negSignal,
    fun lc _ _ ha1 ha2 hb1 hb2 => ⟨bit_neg lc ha1 ha2, boundaryViolated_neg lc ha1 ha2 hb1 hb2⟩,
    findPeak_negSignal⟩

end Sys2Proof.Proofs
end

section
/-! The bit decisions of a clean signal (42_sync_demod.md R122 to R127; 43_frame_crc_collision.md R137): the chips of
each line code one bit at a time, and what they decode to. -/

namespace Sys2Proof.Proofs

open Sys2Proof.Machine

/-! The line codes, one bit at a time (R125, R126) -/

/-- The level of a bit's first chip, after a chip of the given level and a bit `prev`: FM0 inverts at every boundary,
Miller between two data-0 bits. -/
def openingLevel (lc : Nat) (level : Int) (prev bit : Bool) : Int :=
  if lc = 0 ∨ (prev = false ∧ bit = false) then -level else level

/-- The level of a bit's second chip: FM0 inverts inside a data-0, Miller inside a data-1. -/
def closingLevel (lc : Nat) (level : Int) (prev bit : Bool) : Int :=
  if (bit = false ↔ lc = 0) then -openingLevel lc level prev bit else openingLevel lc level prev bit

/-- The line code's chips of a bit, and then those of the bits after it. -/
theorem lineLevels_cons (lc : Nat) (level : Int) (prev bit : Bool) (bits : List Bool) :
    lineLevels lc level prev (bit :: bits)
      = openingLevel lc level prev bit :: closingLevel lc level prev bit
          :: lineLevels lc (closingLevel lc level prev bit) bit bits := by
  by_cases hlc : lc = 0
  · cases bit <;> simp [lineLevels, fm0Levels, openingLevel, closingLevel, hlc]
  · cases bit <;> cases prev <;> simp [lineLevels, millerLevels, openingLevel, closingLevel, hlc]

section Levels

variable {level : Int} (hlevel : level = 1 ∨ level = -1)
include hlevel

/-- The first level of a bit is the level before it or its inverse. -/
theorem openingLevel_sign (lc : Nat) (prev bit : Bool) :
    openingLevel lc level prev bit = 1 ∨ openingLevel lc level prev bit = -1 := by
  unfold openingLevel
  split <;> omega

/-- The second level is the first one or its inverse. -/
theorem closingLevel_sign (lc : Nat) (prev bit : Bool) :
    closingLevel lc level prev bit = 1 ∨ closingLevel lc level prev bit = -1 := by
  have hopen := openingLevel_sign hlevel lc prev bit
  unfold closingLevel
  split <;> omega

/-- The levels differ across the boundary exactly where the line code inverts. -/
theorem level_ne_openingLevel_iff (lc : Nat) (prev bit : Bool) :
    level ≠ openingLevel lc level prev bit ↔ lc = 0 ∨ (prev = false ∧ bit = false) := by
  unfold openingLevel
  split
  next hinverts => exact iff_of_true (by omega) hinverts
  next hkeeps => exact iff_of_false (not_not.2 rfl) hkeeps

/-- The levels differ inside the bit exactly where the line code inverts. -/
theorem openingLevel_ne_closingLevel_iff (lc : Nat) (prev bit : Bool) :
    openingLevel lc level prev bit ≠ closingLevel lc level prev bit ↔ (bit = false ↔ lc = 0) := by
  have hopen := openingLevel_sign hlevel lc prev bit
  unfold closingLevel
  split
  next hinverts => exact iff_of_true (by omega) hinverts
  next hkeeps => exact iff_of_false (not_not.2 rfl) hkeeps

/-- A positive chip sum times a level has the level as its sign (R115). -/
theorem sgn_mul_level {h : Int} (hpos : 0 < h) : sgn (h * level) = level := by
  unfold sgn
  rcases hlevel with rfl | rfl
  · exact if_pos (by omega)
  · exact if_neg (by omega)

/-- A chip sum times a level has the size of the chip sum. -/
theorem natAbs_mul_level (h : Int) : (h * level).natAbs = h.natAbs := by
  have hone : level.natAbs = 1 := by omega
  rw [Int.natAbs_mul, hone, mul_one]

end Levels

/-! The decisions of a clean signal (R122, R123) -/

/-- The decisions of bits in a line code whose chip sums all have the size `h`. -/
def codedDecisions (lc : Nat) (h : Int) : Int → Bool → List Bool → List Decision
  | _, _, [] => []
  | level, prev, bit :: bits =>
    ⟨h * openingLevel lc level prev bit, h * closingLevel lc level prev bit⟩
      :: codedDecisions lc h (closingLevel lc level prev bit) bit bits

/-- The signal of a chip has Hb values. -/
@[simp] theorem chipSignal_length (t : Timing) (a level : Int) : (chipSignal t a level).length = t.halfBit := by
  rw [chipSignal, List.length_map, weights_length]

/-- The signal of a chip, and then that of the chips after it. -/
@[simp] theorem levelsSignal_cons (t : Timing) (a level : Int) (levels : List Int) :
    levelsSignal t a (level :: levels) = chipSignal t a level ++ levelsSignal t a levels := rfl

/-- The chip sum over the signal of one chip: the weights are signs, so each of its Hb terms is the level's height. -/
theorem chip_append_chipSignal (t : Timing) (a level : Int) (before after : List Int) :
    t.chip (before ++ (chipSignal t a level ++ after)) before.length = a * t.halfBit * level := by
  have hterms : List.zipWith (· * ·) (chipSignal t a level ++ after) t.weights
      = (List.range t.halfBit).map fun _ => a * level := by
    have hsplit := List.zipWith_append (f := fun x y : Int => x * y) (l₁' := after) (l₂' := [])
      ((chipSignal_length t a level).trans (weights_length t).symm)
    rw [List.append_nil, List.zipWith_nil_right, List.append_nil] at hsplit
    rw [hsplit, chipSignal, List.zipWith_map_left, List.zipWith_self, Timing.weights, List.map_map]
    simp only [Function.comp_def, mul_assoc, chipWeight_mul_self, mul_one]
  rw [Timing.chip, List.drop_left, hterms, List.map_const', List.sum_replicate, List.length_range, nsmul_eq_mul]
  ring

/-- The first decision, and then those that start two chips later. -/
theorem decisions_succ (t : Timing) (sig : List Int) (d0 n : Nat) :
    t.decisions sig d0 (n + 1)
      = ⟨t.chip sig d0, t.chip sig (d0 + t.halfBit)⟩ :: t.decisions sig (d0 + t.halfBit + t.halfBit) n := by
  have hshift : ∀ k, t.decision sig d0 (k + 1) = t.decision sig (d0 + t.halfBit + t.halfBit) k := by
    intro k
    simp only [Timing.decision]
    congr 2 <;> ring
  simp only [Timing.decisions, List.range_succ_eq_map, List.map_cons, List.map_map, Function.comp_def, hshift]
  simp [Timing.decision]

/-- A clean signal, wherever it stands, decodes to the decisions of its bits. -/
theorem decisions_levelsSignal (t : Timing) (a level : Int) (prev : Bool) (bits : List Bool) (before after : List Int) :
    t.decisions (before ++ levelsSignal t a (lineLevels t.lineCode level prev bits) ++ after) before.length bits.length
      = codedDecisions t.lineCode (a * t.halfBit) level prev bits := by
  induction bits generalizing level prev before with
  | nil => rfl
  | cons bit bits ih =>
    have hrest := ih (closingLevel t.lineCode level prev bit) bit
      (before ++ chipSignal t a (openingLevel t.lineCode level prev bit)
        ++ chipSignal t a (closingLevel t.lineCode level prev bit))
    have hsecond := fun after' => chip_append_chipSignal t a (closingLevel t.lineCode level prev bit)
      (before ++ chipSignal t a (openingLevel t.lineCode level prev bit)) after'
    simp only [List.length_append, chipSignal_length, List.append_assoc, ← Nat.add_assoc] at hrest hsecond
    simp only [List.length_cons, decisions_succ, lineLevels_cons, levelsSignal_cons, List.append_assoc,
      chip_append_chipSignal, hrest, hsecond, codedDecisions]

section CodedDecisions

variable {h : Int} (hpos : 0 < h)
include hpos

/-- A coded bit decides to itself (R124 to R126). -/
theorem bit_coded {level : Int} (hlevel : level = 1 ∨ level = -1) (lc : Nat) (prev bit : Bool) :
    Decision.bit lc ⟨h * openingLevel lc level prev bit, h * closingLevel lc level prev bit⟩ = bit := by
  simp only [Decision.bit, Decision.midTransition, sgn_mul_level (openingLevel_sign hlevel lc prev bit) hpos,
    sgn_mul_level (closingLevel_sign hlevel lc prev bit) hpos, openingLevel_ne_closingLevel_iff hlevel lc prev bit]
  by_cases hlc : lc = 0 <;> cases bit <;> simp [hlc]

/-- Coded bits decide to themselves. -/
theorem map_bit_codedDecisions {level : Int} (hlevel : level = 1 ∨ level = -1) (lc : Nat) (prev : Bool)
    (bits : List Bool) : (codedDecisions lc h level prev bits).map (Decision.bit lc) = bits := by
  induction bits generalizing level prev with
  | nil => rfl
  | cons bit bits ih =>
    rw [codedDecisions, List.map_cons, bit_coded hpos hlevel, ih (closingLevel_sign hlevel lc prev bit)]

/-- The boundary before a coded bit keeps the line code's rule (R137). -/
theorem boundaryViolated_coded {level : Int} (hlevel : level = 1 ∨ level = -1) {lc : Nat} {d : Decision}
    (hh2 : d.h2 = h * level) (bit : Bool) :
    boundaryViolated lc d
      ⟨h * openingLevel lc level (d.bit lc) bit, h * closingLevel lc level (d.bit lc) bit⟩ = false := by
  simp only [boundaryViolated, hh2, sgn_mul_level hlevel hpos,
    sgn_mul_level (openingLevel_sign hlevel lc (d.bit lc) bit) hpos, level_ne_openingLevel_iff hlevel lc (d.bit lc) bit,
    bit_coded hpos hlevel]
  by_cases hlc : lc = 0
  · simp [hlc]
  · cases d.bit lc <;> cases bit <;> simp [hlc]

end CodedDecisions

/-- The confidence of a coded bit is the size of its chip sums (R127). -/
theorem conf_of_mem_codedDecisions {h level : Int} (hlevel : level = 1 ∨ level = -1) {lc : Nat} {prev : Bool}
    {bits : List Bool} {d : Decision} (hd : d ∈ codedDecisions lc h level prev bits) : d.conf = h.natAbs := by
  induction bits generalizing level prev with
  | nil => cases hd
  | cons bit bits ih =>
    have hclose := closingLevel_sign hlevel lc prev bit
    rcases List.mem_cons.1 hd with rfl | hd
    · rw [Decision.conf, natAbs_mul_level (openingLevel_sign hlevel lc prev bit), natAbs_mul_level hclose,
        Nat.min_self]
    · exact ih hclose hd

/-- The boundary between the first two bits, and then those after it. -/
theorem violations_cons_cons (lc : Nat) (a b : Decision) (ds : List Decision) :
    violations lc (a :: b :: ds) = violations lc (b :: ds) + if boundaryViolated lc a b = true then 1 else 0 := by
  simp [violations, List.count_cons]

/-- No boundary is violated from a bit that ends at a level on through the coded bits after it. -/
theorem violations_cons_codedDecisions {h level : Int} (hpos : 0 < h) (hlevel : level = 1 ∨ level = -1) {lc : Nat}
    {d : Decision} (hh2 : d.h2 = h * level) (bits : List Bool) :
    violations lc (d :: codedDecisions lc h level (d.bit lc) bits) = 0 := by
  induction bits generalizing level d with
  | nil => rfl
  | cons bit bits ih =>
    have hnext := ih (closingLevel_sign hlevel lc (d.bit lc) bit)
      (d := ⟨h * openingLevel lc level (d.bit lc) bit, h * closingLevel lc level (d.bit lc) bit⟩) rfl
    rw [bit_coded hpos hlevel] at hnext
    rw [codedDecisions, violations_cons_cons, boundaryViolated_coded hpos hlevel hh2, hnext]
    rfl

/-- No boundary between coded bits is violated. -/
theorem violations_codedDecisions {h level : Int} (hpos : 0 < h) (hlevel : level = 1 ∨ level = -1) (lc : Nat)
    (prev : Bool) (bits : List Bool) : violations lc (codedDecisions lc h level prev bits) = 0 := by
  cases bits with
  | nil => rfl
  | cons bit bits =>
    have hall := violations_cons_codedDecisions hpos (closingLevel_sign hlevel lc prev bit) (lc := lc)
      (d := ⟨h * openingLevel lc level prev bit, h * closingLevel lc level prev bit⟩) rfl bits
    rwa [bit_coded hpos hlevel] at hall

/-- No coded bit has a confidence below a threshold that its chip sums reach. -/
theorem lowConfidence_codedDecisions {h level : Int} (hlevel : level = 1 ∨ level = -1) {thr : Nat}
    (hthr : (thr : Int) ≤ h) (lc : Nat) (prev : Bool) (bits : List Bool) :
    lowConfidence thr (codedDecisions lc h level prev bits) = 0 := by
  rw [lowConfidence, List.countP_eq_zero]
  intro d hd
  have hconf := conf_of_mem_codedDecisions hlevel hd
  rw [decide_eq_true_iff]
  omega

/-! The statement about clean signals -/

/-- Settles O38: the chip sums of a clean signal are Hb times the amplitude, with the signs of the line code's levels. -/
theorem lineCodeSignalDecodesToItsBits : Obligations.LineCodeSignalDecodesToItsBits := by
  intro t before after bits prev level a hHb ha hlevel
  have hpos : 0 < a * (t.halfBit : Int) := mul_pos ha (Int.natCast_pos.2 hHb)
  simp only [decisions_levelsSignal]
  exact ⟨map_bit_codedDecisions hpos hlevel _ _ _, violations_codedDecisions hpos hlevel _ _ _,
    fun thr hthr => lowConfidence_codedDecisions hlevel hthr _ _ _⟩

end Sys2Proof.Proofs
end

section
/-! The record of a burst, outcome by outcome (42_sync_demod.md R120; 43_frame_crc_collision.md R130, R139;
60_exceptions.md R156). -/

namespace Sys2Proof.Proofs

open Sys2Proof.Machine

/-- A burst without a hint is UNSOLICITED. -/
theorem recordOf_of_no_hint {b : Burst} (h : b.hint = .none) (c : BaseConfig) (t : Timing) :
    recordOf c t b = emptyRecord b .unsolicited := by
  simp only [recordOf, h]

/-- A burst with a hint and no candidate phase is a SYNC_FAILURE. -/
theorem recordOf_of_no_peak {t : Timing} {b : Burst} (hhint : b.hint ≠ .none)
    (hpeak : t.findPeak (demodSignal b.samples) = none) (c : BaseConfig) :
    recordOf c t b = emptyRecord b .syncFailure := by
  cases hb : b.hint with
  | none => exact absurd hb hhint
  | rn16 | epc => simp only [recordOf, hb, hpeak]

/-- A burst with a hint and a peak: the quality of the peak is tested, and then the number of samples. -/
theorem recordOf_of_peak {t : Timing} {b : Burst} {p : Peak} (hhint : b.hint ≠ .none)
    (hpeak : t.findPeak (demodSignal b.samples) = some p) (c : BaseConfig) :
    recordOf c t b
      = if p.passes c.syncThr.toNat = false then (emptyRecord b .syncFailure).withPeak p
        else
          let n := (payloadBits c.epcBits b.hint).toNat + 16
          if b.samples.length < t.dataStart p + 2 * n * t.halfBit then (emptyRecord b .lengthMismatch).withPeak p
          else frameRecord c b p (t.decisions (demodSignal b.samples) (t.dataStart p) n) := by
  cases hb : b.hint with
  | none => exact absurd hb hhint
  | rn16 | epc => simp only [recordOf, hb, hpeak, Bool.not_eq_true']

/-- The peak passes where its amplitude is not 0 and its quality reaches the threshold (R120). -/
theorem passes_iff (p : Peak) (thr : Nat) :
    p.passes thr = true ↔ p.amp ≠ 0 ∧ thr * p.amp ≤ 256 * p.corr.natAbs := by
  rw [Peak.passes, Bool.and_eq_true, decide_eq_true_iff, decide_eq_true_iff]

/-! The statement about the outcomes -/

/-- Settles O43: by the hint, the peak, its quality and the number of samples, in that order. -/
theorem decodeOutcomesInOrder : Obligations.DecodeOutcomesInOrder := by
  intro c t b
  refine ⟨fun h => recordOf_of_no_hint h c t, fun hhint hpeak => recordOf_of_no_peak hhint hpeak c,
    fun p hhint hpeak => ⟨fun hfail => ?_, fun hamp hthr => ?_⟩⟩
  · have hnot : p.passes c.syncThr.toNat = false := by
      rw [Bool.eq_false_iff, ne_eq, passes_iff]
      omega
    rw [recordOf_of_peak hhint hpeak, if_pos hnot]
    rfl
  · have hpass : p.passes c.syncThr.toNat = true := (passes_iff p _).2 ⟨hamp, hthr⟩
    have hbits : (payloadBits c.epcBits b.hint).toNat = match b.hint with | .epc => c.epcBits.toNat | _ => 16 := by
      cases hb : b.hint with
      | none => exact absurd hb hhint
      | rn16 | epc => rfl
    rw [recordOf_of_peak hhint hpeak, if_neg (by rw [hpass]; decide), hbits]
    exact ⟨fun hshort => if_pos hshort, fun hlong => if_neg (Nat.not_lt.2 hlong)⟩

end Sys2Proof.Proofs
end

section
/-! The CRC validator (43_frame_crc_collision.md R133 to R136): the register's update is linear, which gives the
residue, and injective where POLY[0] = 1, which is why no single flipped bit is missed. -/

namespace Sys2Proof.Proofs

open Sys2Proof.Machine

/-! The number of a bit sequence (R132) -/

/-- The number of a bit sequence has no more bits than the sequence. -/
theorem bitsToNat_lt (bits : List Bool) : bitsToNat bits < 2 ^ bits.length :=
  Nat.lt_pow_two_of_testBit _ fun k hk => by
    rw [testBit_bitsToNat, List.getD_eq_default _ _ (by rwa [List.length_reverse])]

/-- A word's 16 bits, first bit first, are the word. -/
theorem ofNat_bitsToNat_getMsbD (x : BitVec 16) :
    BitVec.ofNat 16 (bitsToNat (List.ofFn fun i : Fin 16 => x.getMsbD i)) = x := by
  apply BitVec.eq_of_getMsbD_eq
  intro j hj
  have hback : 16 - 1 - (16 - 1 - j) = j := by omega
  rw [BitVec.getMsbD_eq_getLsbD, BitVec.getLsbD_ofNat, testBit_bitsToNat, List.getD_eq_getElem?_getD,
    List.getElem?_reverse (by rw [List.length_ofFn]; omega), List.length_ofFn, hback, List.getElem?_ofFn]
  have hin : 16 - 1 - j < 16 := by omega
  simp [hj, hin]

/-! The register (R133) -/

/-- A data bit and the register's top bit enter the feedback alike: the data word may be added to the register first. -/
theorem crcStep_xor (poly r x : BitVec 16) :
    crcStep poly r x.msb ^^^ x <<< 1 = crcStep poly (r ^^^ x) false := by
  simp only [crcStep, BitVec.msb_xor, Bool.xor_false, BitVec.shiftLeft_xor_distrib]
  cases r.msb ^^ x.msb with
  | false => rfl
  | true =>
    rw [if_pos rfl, if_pos rfl]
    ac_rfl

/-- The bits of a word are its top bit and then the bits of the word shifted up. -/
theorem ofFn_getMsbD_succ (n : Nat) (x : BitVec 16) :
    (List.ofFn fun i : Fin (n + 1) => x.getMsbD i) = x.msb :: List.ofFn fun i : Fin n => (x <<< 1).getMsbD i := by
  rw [List.ofFn_succ]
  congr 2
  funext i
  simp only [BitVec.getMsbD_shiftLeft, Fin.val_succ]

/-- Running the register over a word with nothing below its first n bits is running the sum of register and word over n
zeros. -/
theorem foldl_crcStep_getMsbD (poly : BitVec 16) {n : Nat} {x : BitVec 16} (hx : x <<< n = 0) (r : BitVec 16) :
    (List.ofFn fun i : Fin n => x.getMsbD i).foldl (crcStep poly) r
      = (List.replicate n false).foldl (crcStep poly) (r ^^^ x) := by
  induction n generalizing r x with
  | zero =>
    rw [BitVec.shiftLeft_zero] at hx
    rw [hx]
    exact (BitVec.xor_zero).symm
  | succ n ih =>
    rw [Nat.add_comm, BitVec.shiftLeft_add] at hx
    rw [ofFn_getMsbD_succ, List.replicate_succ, List.foldl_cons, List.foldl_cons, ih hx, crcStep_xor]

/-- A register that takes in its own complement, as the final XOR 0xFFFF sends it, holds what 0xFFFF leaves after 16
zeros, whatever it held before (R135). -/
theorem foldl_crcStep_complement (r : BitVec 16) :
    (List.ofFn fun i : Fin 16 => (r ^^^ 0xFFFF).getMsbD i).foldl (crcStep 0x1021) r = 0x1D0F := by
  rw [foldl_crcStep_getMsbD _ (BitVec.shiftLeft_eq_zero le_rfl), ← BitVec.xor_assoc, BitVec.xor_self, BitVec.zero_xor]
  decide +kernel

/-! What one flipped bit does (R136) -/

/-- A fold whose step is injective in the state keeps two states apart. -/
theorem foldl_ne_of_ne {σ : Type} {f : σ → Bool → σ} (hstate : ∀ b r r', f r b = f r' b → r = r') (bits : List Bool)
    {r r' : σ} (hne : r ≠ r') : bits.foldl f r ≠ bits.foldl f r' := by
  induction bits generalizing r r' with
  | nil => exact hne
  | cons b rest ih => exact ih fun heq => hne (hstate b r r' heq)

/-- A fold whose step is injective in the state and tells the two bits apart notices a flipped bit. -/
theorem foldl_set_not_ne {σ : Type} {f : σ → Bool → σ} (hstate : ∀ b r r', f r b = f r' b → r = r')
    (hbit : ∀ r b, f r (!b) ≠ f r b) {bits : List Bool} {i : Nat} (hi : i < bits.length) (r : σ) :
    (bits.set i (!bits.getD i false)).foldl f r ≠ bits.foldl f r := by
  induction bits generalizing i r with
  | nil => exact absurd hi (Nat.not_lt_zero i)
  | cons b rest ih =>
    cases i with
    | zero => exact foldl_ne_of_ne hstate rest (hbit r b)
    | succ i => exact ih (Nat.lt_of_succ_lt_succ hi) (f r b)

/-- A flipped bit changes the number of a sequence. -/
theorem bitsToNat_set_not_ne {bits : List Bool} {i : Nat} (hi : i < bits.length) :
    bitsToNat (bits.set i (!bits.getD i false)) ≠ bitsToNat bits :=
  foldl_set_not_ne (fun b r r' h => by omega) (fun r b => by cases b <;> simp) hi 0

/-- With POLY[0] = 1 the lowest bit of the register is the feedback of the step before. -/
theorem crcStep_getLsbD_zero {poly : BitVec 16} (hpoly : poly.getLsbD 0 = true) (r : BitVec 16) (d : Bool) :
    (crcStep poly r d).getLsbD 0 = (r.msb ^^ d) := by
  unfold crcStep
  split
  next h => simp [hpoly, h]
  next h => simp [h]

/-- With POLY[0] = 1 the step can be undone: the feedback is known, and with it the register's top bit. -/
theorem crcStep_injective {poly : BitVec 16} (hpoly : poly.getLsbD 0 = true) (d : Bool) (r r' : BitVec 16)
    (h : crcStep poly r d = crcStep poly r' d) : r = r' := by
  have hfeed : (r.msb ^^ d) = (r'.msb ^^ d) := by
    rw [← crcStep_getLsbD_zero hpoly, ← crcStep_getLsbD_zero hpoly, h]
  have hmsb : r.msb = r'.msb := Bool.xor_left_inj.1 hfeed
  have hlow : r <<< 1 = r' <<< 1 := by
    unfold crcStep at h
    rw [hfeed] at h
    split at h
    · exact (BitVec.xor_left_inj _).1 h
    · exact h
  apply BitVec.eq_of_getMsbD_eq
  intro j hj
  cases j with
  | zero => exact hmsb
  | succ j => simpa using congrArg (·.getMsbD j) hlow

/-- With POLY[0] = 1 the two data bits leave different registers, since they give different feedbacks. -/
theorem crcStep_not_ne {poly : BitVec 16} (hpoly : poly.getLsbD 0 = true) (r : BitVec 16) (d : Bool) :
    crcStep poly r (!d) ≠ crcStep poly r d := by
  intro h
  have hfeed := congrArg (·.getLsbD 0) h
  simp only [crcStep_getLsbD_zero hpoly, Bool.xor_not] at hfeed
  exact Bool.not_ne_self _ hfeed

/-- A flipped bit changes the CRC of a sequence. -/
theorem crc_set_not_ne {poly : BitVec 16} (hpoly : poly.getLsbD 0 = true) (init xorout : BitVec 16) {bits : List Bool}
    {i : Nat} (hi : i < bits.length) :
    crc poly init xorout (bits.set i (!bits.getD i false)) ≠ crc poly init xorout bits :=
  fun h => foldl_set_not_ne (crcStep_injective hpoly) (crcStep_not_ne hpoly) hi init ((BitVec.xor_left_inj _).1 h)

/-! The statements about the CRC -/

/-- Settles O40: the CRC is the complement of the register it leaves, and the sum of the two does not depend on it. -/
theorem crcValuesAndResidue : Obligations.CrcValuesAndResidue := by
  refine ⟨by decide +kernel, fun bits => ?_⟩
  rw [crc, List.foldl_append]
  exact BitVec.xor_zero.trans (foldl_crcStep_complement _)

/-- Settles O41: a flip in the payload changes the CRC alone, a flip in the field changes the field alone. -/
theorem crcCatchesEverySingleBitFlip : Obligations.CrcCatchesEverySingleBitFlip := by
  intro poly init xorout bits p i hpoly hlen hi hmatch
  rw [List.take_set, List.drop_set]
  by_cases hpayload : i < p
  · have hbit : bits.getD i false = (bits.take p).getD i false := by
      rw [List.getD_eq_getElem?_getD, List.getD_eq_getElem?_getD, List.getElem?_take_of_lt hpayload]
    rw [if_pos hpayload, ← hmatch, hbit]
    exact crc_set_not_ne hpoly init xorout (by rw [List.length_take]; omega)
  · have hbit : bits.getD i false = (bits.drop p).getD (i - p) false := by
      rw [List.getD_eq_getElem?_getD, List.getD_eq_getElem?_getD, List.getElem?_drop,
        Nat.add_sub_cancel' (Nat.le_of_not_lt hpayload)]
    have hfield : (bits.drop p).length = 16 := by rw [List.length_drop]; omega
    have hflip := bitsToNat_set_not_ne (bits := bits.drop p) (i := i - p) (by omega)
    rw [if_neg hpayload, List.set_eq_of_length_le (by rw [List.length_take]; omega), hmatch, hbit]
    intro heq
    have hold := bitsToNat_lt (bits.drop p)
    have hnew := bitsToNat_lt ((bits.drop p).set (i - p) (!(bits.drop p).getD (i - p) false))
    rw [List.length_set, hfield] at hnew
    rw [hfield] at hold
    have hmod := congrArg BitVec.toNat heq
    rw [BitVec.toNat_ofNat, BitVec.toNat_ofNat, Nat.mod_eq_of_lt hold, Nat.mod_eq_of_lt hnew] at hmod
    exact hflip hmod.symm

end Sys2Proof.Proofs
end

section
/-! The record of a decided frame (43_frame_crc_collision.md R130, R132, R134, R137, R138, R140): its counts and its CRC
field as the rules write them. -/

namespace Sys2Proof.Proofs

open Sys2Proof.Machine

/-! The collision detector's counts (R137) -/

/-- A boundary's test in terms of the signs: a chip sum of 0 is positive (42_sync_demod.md R115). -/
theorem boundaryViolated_eq (lc : Nat) (a b : Decision) :
    boundaryViolated lc a b
      = ((decide ¬(0 ≤ a.h2 ↔ 0 ≤ b.h1)) != if lc = 0 then true else !a.bit lc && !b.bit lc) := by
  simp only [boundaryViolated, ne_eq, sgn_eq_sgn_iff]

/-- The decision at a position, with chip sums of 0 beyond the last. -/
def decisionAt (ds : List Decision) (j : Nat) : Decision := ds.getD j ⟨0, 0⟩

/-- What is mapped over the decisions has at each position the decision's value. -/
theorem getD_map_decision {α : Type} (f : Decision → α) (x : α) {ds : List Decision} {j : Nat} (hj : j < ds.length) :
    (ds.map f).getD j x = f (decisionAt ds j) := by
  rw [decisionAt, List.getD_eq_getElem _ _ hj, List.getD_eq_getElem _ _ (by rwa [List.length_map]), List.getElem_map]

/-- Every pair of neighbours is tested once, in order. -/
theorem violations_eq_length_filter (lc : Nat) (ds : List Decision) :
    violations lc ds
      = ((List.range (ds.length - 1)).filter fun j =>
          boundaryViolated lc (decisionAt ds j) (decisionAt ds (j + 1))).length := by
  have hpairs : List.zipWith (boundaryViolated lc) ds ds.tail
      = (List.range (ds.length - 1)).map fun j => boundaryViolated lc (decisionAt ds j) (decisionAt ds (j + 1)) := by
    refine List.ext_getElem (by simp) fun j _ hj => ?_
    have hnext : j + 1 < ds.length := by simp at hj; omega
    simp only [decisionAt, List.getElem_zipWith, List.getElem_tail, List.getElem_map, List.getElem_range,
      List.getD_eq_getElem _ _ hnext, List.getD_eq_getElem _ _ (Nat.lt_of_succ_lt hnext)]
  rw [violations, hpairs, List.count, List.countP_map, List.countP_eq_length_filter]
  simp only [Function.comp_def, beq_true]

/-- The count as the rule writes it, over the chip sums and the decided bits of the record. -/
theorem violations_eq_written {lc n : Nat} {ds : List Decision} (hlen : ds.length = n + 1) :
    violations lc ds
      = ((List.range n).filter fun j =>
          (decide ¬(0 ≤ (ds.map Decision.h2).getD j 0 ↔ 0 ≤ (ds.map Decision.h1).getD (j + 1) 0))
            != if lc = 0 then true
              else !(ds.map (Decision.bit lc)).getD j false
                && !(ds.map (Decision.bit lc)).getD (j + 1) false).length := by
  rw [violations_eq_length_filter, hlen, Nat.add_sub_cancel]
  refine congrArg List.length (List.filter_congr fun j hj => ?_)
  rw [List.mem_range] at hj
  have hnext : j + 1 < ds.length := by omega
  simp only [boundaryViolated_eq, getD_map_decision _ _ hnext, getD_map_decision _ _ (Nat.lt_of_succ_lt hnext)]

/-- There are fewer violated boundaries than bits. -/
theorem violations_le (lc : Nat) (ds : List Decision) : violations lc ds ≤ ds.length := by
  rw [violations_eq_length_filter]
  exact (List.length_filter_le _ _).trans (by rw [List.length_range]; exact Nat.sub_le _ 1)

/-- A count that fits the 16-bit field is not cut. -/
theorem count16_toNat {x : Nat} (h : x ≤ 0xFFFF) : (count16 x).toNat = x := by
  rw [count16, Nat.min_eq_left h, BitVec.toNat_ofNat]
  omega

/-- The collision flag compares the sum of the two counts with COLL_THR (R138). -/
theorem frameRecord_collision_iff (c : BaseConfig) (b : Burst) (p : Peak) (ds : List Decision) :
    (frameRecord c b p ds).collision = true
      ↔ c.collThr.toNat ≤ violations c.lineCode.toNat ds + lowConfidence c.collConfThr.toNat ds :=
  decide_eq_true_iff

/-! The received CRC (R132) -/

/-- The number of a bit sequence as the sum of its bits' weights, the first bit's the largest. -/
theorem bitsToNat_eq_sum (bits : List Bool) :
    bitsToNat bits
      = ∑ j ∈ Finset.range bits.length, (bits.getD j false).toNat * 2 ^ (bits.length - 1 - j) := by
  induction bits using List.reverseRecOn with
  | nil => rfl
  | append_singleton bits b ih =>
    have hweight : ∀ j ∈ Finset.range bits.length,
        ((bits ++ [b]).getD j false).toNat * 2 ^ (bits.length + 1 - 1 - j)
          = 2 * ((bits.getD j false).toNat * 2 ^ (bits.length - 1 - j)) := by
      intro j hj
      rw [Finset.mem_range] at hj
      have hexp : bits.length + 1 - 1 - j = bits.length - 1 - j + 1 := by omega
      rw [List.getD_append _ _ _ _ hj, hexp, pow_succ]
      ring
    rw [bitsToNat_concat, Nat.bit_val, ih, List.length_append, List.length_singleton, Finset.sum_range_succ,
      Finset.sum_congr rfl hweight, Finset.mul_sum]
    simp

/-- The 16 bits after the first k, as a number of 16 bits. -/
theorem ofNat_bitsToNat_drop {bits : List Bool} {k : Nat} (hlen : bits.length = k + 16) :
    (BitVec.ofNat 16 (bitsToNat ((bits.drop k).take 16))).toNat
      = ∑ j ∈ Finset.range 16, (bits.getD (k + j) false).toNat * 2 ^ (15 - j) := by
  have hfield : (bits.drop k).length = 16 := by rw [List.length_drop]; omega
  have hlt := bitsToNat_lt (bits.drop k)
  rw [List.take_of_length_le hfield.le, BitVec.toNat_ofNat, Nat.mod_eq_of_lt (hfield ▸ hlt), bitsToNat_eq_sum, hfield]
  simp only [List.getD_eq_getElem?_getD, List.getElem?_drop]

/-! The quality of the peak (42_sync_demod.md R119) -/

/-- The quality is the quotient also at amplitude 0, where both are 0. -/
theorem quality_eq (p : Peak) : p.quality = 256 * p.corr.natAbs / p.amp := by
  unfold Peak.quality
  split
  next => rfl
  next hamp => rw [Nat.eq_zero_of_not_pos hamp, Nat.div_zero]

/-! The statement about the record -/

/-- Settles O42: by the fields of the record, the counts and the received CRC as the rules write them. -/
theorem frameRecordFields : Obligations.FrameRecordFields := by
  intro c b p ds k hcases hk hlen fm0 h1 h2 bits bit bnd viol low r
  have hplen : (payloadBits c.epcBits b.hint).toNat = k := by
    rcases hcases with ⟨hhint, rfl⟩ | ⟨hhint, rfl⟩ <;> rw [hhint] <;> rfl
  have hbits : bits = ds.map (Decision.bit c.lineCode.toNat) :=
    List.map_congr_left fun d _ => (bit_eq _ d).symm
  have hbitsLen : bits.length = k + 16 := by rw [hbits, List.length_map, hlen]
  have hviol : viol = violations c.lineCode.toNat ds := by
    rw [violations_eq_written hlen, ← hbits]
  have hlow : low = lowConfidence c.collConfThr.toNat ds := List.countP_eq_length_filter.symm
  have hviolLe := violations_le c.lineCode.toNat ds
  have hlowLe : lowConfidence c.collConfThr.toNat ds ≤ ds.length := List.countP_le_length
  refine ⟨?viol, ?low, ?collision, ?crcRx, ?crcCalc, ?ok, ?bad, ?payload, ?rn16, ?epc, rfl, hplen, rfl, rfl, rfl, rfl,
    rfl, ?quality⟩
  case viol => rw [hviol]; exact count16_toNat (by omega)
  case low => rw [hlow]; exact count16_toNat (by omega)
  case collision => rw [hviol, hlow]; exact frameRecord_collision_iff c b p ds
  case crcRx =>
    rw [← ofNat_bitsToNat_drop hbitsLen, hbits, ← hplen]
    rfl
  case crcCalc => rw [hbits, ← hplen]; rfl
  case payload => rw [hbits, ← hplen]; rfl
  case ok => exact fun heq => ⟨if_pos heq, decide_eq_true heq⟩
  case bad => exact fun hne => ⟨if_neg hne, decide_eq_false hne⟩
  case rn16 => exact fun hhint => congrArg Expect.kind hhint
  case epc => exact fun hhint => congrArg Expect.kind hhint
  case quality => exact congrArg (BitVec.ofNat 9) (quality_eq p)

end Sys2Proof.Proofs
end

section
/-! A noise-free reply (43_frame_crc_collision.md R143): the preamble's chips give the largest correlation any phase can
have, so the search locks to phase 0, and the line code's chips after it decode to the payload and its CRC. -/

namespace Sys2Proof.Proofs

open Sys2Proof.Machine

/-! Signals of chip levels -/

/-- The signal of some chips, and then that of the chips after them. -/
theorem levelsSignal_append (t : Timing) (a : Int) (levels levels' : List Int) :
    levelsSignal t a (levels ++ levels') = levelsSignal t a levels ++ levelsSignal t a levels' := by
  rw [levelsSignal, List.map_append, List.flatten_append]
  rfl

/-- Every chip has Hb values. -/
theorem levelsSignal_length (t : Timing) (a : Int) (levels : List Int) :
    (levelsSignal t a levels).length = levels.length * t.halfBit := by
  induction levels with
  | nil => exact (Nat.zero_mul _).symm
  | cons level levels ih =>
    rw [levelsSignal_cons, List.length_append, chipSignal_length, ih, List.length_cons, Nat.succ_mul, Nat.add_comm]

/-- The chip sum at chip j is Hb times the amplitude, with the sign of the chip's level. -/
theorem chip_levelsSignal {t : Timing} {levels : List Int} {j : Nat} (hj : j < levels.length) (a : Int)
    (after : List Int) :
    t.chip (levelsSignal t a levels ++ after) (j * t.halfBit) = a * t.halfBit * levels[j] := by
  have hbefore : (levelsSignal t a (levels.take j)).length = j * t.halfBit := by
    rw [levelsSignal_length, List.length_take_of_le hj.le]
  have hsplit : levelsSignal t a levels = levelsSignal t a (levels.take j)
      ++ (chipSignal t a levels[j] ++ levelsSignal t a (levels.drop (j + 1))) := by
    rw [← levelsSignal_cons, List.getElem_cons_drop, ← levelsSignal_append, List.take_append_drop]
  rw [hsplit, List.append_assoc, List.append_assoc, ← hbefore, chip_append_chipSignal]

/-- A chip weight has absolute value 1. -/
theorem abs_weight {t : Timing} {w : Int} (hw : w ∈ t.weights) : |w| = 1 := by
  obtain ⟨i, -, rfl⟩ := List.mem_map.1 hw
  rw [chipWeight_eq]
  split <;> rfl

/-- The signal of chips at levels ±1 has the amplitude as its absolute value everywhere. -/
theorem abs_le_of_mem_levelsSignal {t : Timing} {a v : Int} {levels : List Int} (ha : 0 < a)
    (hlevels : ∀ level ∈ levels, level = 1 ∨ level = -1) (hv : v ∈ levelsSignal t a levels) : |v| ≤ a := by
  obtain ⟨chipValues, hchip, hv⟩ := List.mem_flatten.1 hv
  obtain ⟨level, hlevel, rfl⟩ := List.mem_map.1 hchip
  obtain ⟨w, hw, rfl⟩ := List.mem_map.1 hv
  have hone : |level| = 1 := by rcases hlevels level hlevel with rfl | rfl <;> rfl
  rw [abs_mul, abs_mul, abs_weight hw, hone, abs_of_pos ha, mul_one, mul_one]

/-- A line code has two chips for each bit. -/
theorem lineLevels_length (lc : Nat) (level : Int) (prev : Bool) (bits : List Bool) :
    (lineLevels lc level prev bits).length = 2 * bits.length := by
  induction bits generalizing level prev with
  | nil => unfold lineLevels; split <;> rfl
  | cons bit bits ih =>
    rw [lineLevels_cons, List.length_cons, List.length_cons, ih, List.length_cons]
    omega

/-- A line code's levels are +1 and -1. -/
theorem sign_of_mem_lineLevels {level : Int} (hlevel : level = 1 ∨ level = -1) {lc : Nat} {prev : Bool}
    {bits : List Bool} {x : Int} (hx : x ∈ lineLevels lc level prev bits) : x = 1 ∨ x = -1 := by
  induction bits generalizing level prev with
  | nil => unfold lineLevels at hx; split at hx <;> cases hx
  | cons bit bits ih =>
    rw [lineLevels_cons, List.mem_cons, List.mem_cons] at hx
    rcases hx with rfl | rfl | hx
    · exact openingLevel_sign hlevel lc prev bit
    · exact closingLevel_sign hlevel lc prev bit
    · exact ih (closingLevel_sign hlevel lc prev bit) hx

/-! How large a correlation can be (42_sync_demod.md R114, R118) -/

/-- A sum of products with signs is at most the number of signs times the largest size. -/
theorem abs_sum_zipWith_le {a : Int} (ha : 0 ≤ a) {xs ws : List Int} (hxs : ∀ x ∈ xs, |x| ≤ a)
    (hws : ∀ w ∈ ws, |w| = 1) : |(List.zipWith (· * ·) xs ws).sum| ≤ a * ws.length := by
  induction ws generalizing xs with
  | nil => simp
  | cons w ws ih =>
    cases xs with
    | nil =>
      rw [List.zipWith_nil_left, List.sum_nil, abs_zero]
      exact mul_nonneg ha (Int.natCast_nonneg _)
    | cons x xs =>
      obtain ⟨hx, hxs⟩ := List.forall_mem_cons.1 hxs
      obtain ⟨hw, hws⟩ := List.forall_mem_cons.1 hws
      calc |(List.zipWith (· * ·) (x :: xs) (w :: ws)).sum|
          ≤ |x * w| + |(List.zipWith (· * ·) xs ws).sum| := abs_add_le _ _
        _ ≤ a + a * ws.length := add_le_add (by rwa [abs_mul, hw, mul_one]) (ih hxs hws)
        _ = a * (w :: ws).length := by rw [List.length_cons]; push_cast; ring

/-- A chip sum over values of at most some size is at most Hb times that size. -/
theorem abs_chip_le {a : Int} (ha : 0 ≤ a) {sig : List Int} (hsig : ∀ v ∈ sig, |v| ≤ a) (t : Timing) (x : Nat) :
    |t.chip sig x| ≤ a * t.halfBit := by
  have hbound := abs_sum_zipWith_le ha (fun v hv => hsig v (List.mem_of_mem_drop hv)) (fun w => abs_weight (t := t))
    (xs := sig.drop x)
  rwa [weights_length] at hbound

/-- No correlation exceeds the number of chips times the largest chip sum. -/
theorem corr_natAbs_le_of_bounded {a : Int} (ha : 0 ≤ a) {sig : List Int} (hsig : ∀ v ∈ sig, |v| ≤ a) (t : Timing)
    (tau : Nat) : ((t.corr sig tau).natAbs : Int) ≤ t.preambleLen * (a * t.halfBit) := by
  refine (Int.ofNat_le.2 (corr_natAbs_le_amplitude t sig tau)).trans ?_
  rw [amplitude_eq_sum, Nat.cast_sum]
  have hterm : ∀ j ∈ Finset.range t.preambleLen,
      ((t.chip sig (tau + j * t.halfBit)).natAbs : Int) ≤ a * t.halfBit := fun j _ => by
    rw [Int.natCast_natAbs]
    exact abs_chip_le ha hsig t _
  simpa using Finset.sum_le_card_nsmul _ _ _ hterm

/-! The peak of a clean preamble (R117, R119) -/

/-- The signal of the configured preamble. -/
def preambleSignal (t : Timing) (a : Int) : List Int := levelsSignal t a ((List.range t.preambleLen).map t.preambleChip)

/-- The peak at phase 0 with every chip sum Hb times the amplitude and of its chip's sign. -/
def cleanPeak (t : Timing) (a : Int) : Peak :=
  ⟨0, t.preambleLen * (a * t.halfBit), (t.preambleLen * (a * t.halfBit)).natAbs⟩

/-- The preamble's signal has Hb values for each of its chips. -/
theorem preambleSignal_length (t : Timing) (a : Int) : (preambleSignal t a).length = t.preambleLen * t.halfBit := by
  rw [preambleSignal, levelsSignal_length, List.length_map, List.length_range]

/-- A preamble chip is +1 or -1. -/
theorem preambleChip_sign (t : Timing) (j : Nat) : t.preambleChip j = 1 ∨ t.preambleChip j = -1 := by
  have habs := preambleChip_natAbs t j
  omega

/-- The chip sums under the preamble at phase 0. -/
theorem chip_preambleSignal {t : Timing} {j : Nat} (hj : j < t.preambleLen) (a : Int) (after : List Int) :
    t.chip (preambleSignal t a ++ after) (0 + j * t.halfBit) = a * t.halfBit * t.preambleChip j := by
  rw [Nat.zero_add, preambleSignal, chip_levelsSignal (by simpa using hj), List.getElem_map, List.getElem_range]

/-- The peak at phase 0. -/
theorem peakAt_preambleSignal (t : Timing) (a : Int) (after : List Int) :
    t.peakAt (preambleSignal t a ++ after) 0 = cleanPeak t a := by
  have hcorr : t.corr (preambleSignal t a ++ after) 0 = t.preambleLen * (a * t.halfBit) := by
    have hterm : ∀ j ∈ Finset.range t.preambleLen,
        t.preambleChip j * t.chip (preambleSignal t a ++ after) (0 + j * t.halfBit) = a * t.halfBit := fun j hj => by
      rw [chip_preambleSignal (Finset.mem_range.1 hj)]
      rcases preambleChip_sign t j with h | h <;> rw [h] <;> ring
    rw [corr_eq_sum, Finset.sum_congr rfl hterm, Finset.sum_const, Finset.card_range, nsmul_eq_mul]
  have hamp : t.amplitude (preambleSignal t a ++ after) 0 = (t.preambleLen * (a * t.halfBit) : Int).natAbs := by
    have hterm : ∀ j ∈ Finset.range t.preambleLen,
        (t.chip (preambleSignal t a ++ after) (0 + j * t.halfBit)).natAbs = (a * t.halfBit : Int).natAbs :=
      fun j hj => by
        rw [chip_preambleSignal (Finset.mem_range.1 hj), Int.natAbs_mul, preambleChip_natAbs, mul_one]
    rw [amplitude_eq_sum, Finset.sum_congr rfl hterm, Finset.sum_const, Finset.card_range, smul_eq_mul,
      Int.natAbs_mul t.preambleLen, Int.natAbs_natCast]
  rw [Timing.peakAt, hcorr, hamp, cleanPeak]

/-- Where phase 0 is a candidate and no phase has a larger |corr|, the search locks to phase 0. -/
theorem findPeak_eq_peakAt_zero {t : Timing} {sig : List Int} (hcand : 0 ∈ t.candidates sig.length)
    (hmax : ∀ tau, (t.corr sig tau).natAbs ≤ (t.corr sig 0).natAbs) : t.findPeak sig = some (t.peakAt sig 0) := by
  cases hpeak : t.findPeak sig with
  | none =>
    rw [findPeak_eq_none_iff] at hpeak
    rw [hpeak] at hcand
    cases hcand
  | some p =>
    obtain ⟨-, heq, -, hlt⟩ := findPeak_firstLargest hpeak
    have hzero : p.offset = 0 := by
      by_contra hne
      have hless := hlt 0 hcand (Nat.pos_of_ne_zero hne)
      rw [heq] at hless
      exact absurd hless (hmax p.offset).not_gt
    rw [heq, hzero]

section CleanPreamble

variable {t : Timing} {a : Int} (hHb : 0 < t.halfBit) (hLp : 0 < t.preambleLen) (ha : 0 < a)
include hHb hLp ha

/-- The correlation of a clean preamble is positive. -/
theorem cleanPeak_corr_pos : 0 < (cleanPeak t a).corr :=
  mul_pos (Int.natCast_pos.2 hLp) (mul_pos ha (Int.natCast_pos.2 hHb))

/-- The search locks to a clean preamble with nothing louder after it. -/
theorem findPeak_preambleSignal (hwindow : 0 < t.window) {after : List Int} (hafter : ∀ v ∈ after, |v| ≤ a) :
    t.findPeak (preambleSignal t a ++ after) = some (cleanPeak t a) := by
  have hpreamble : ∀ v ∈ preambleSignal t a, |v| ≤ a := fun v hv =>
    abs_le_of_mem_levelsSignal ha (List.forall_mem_map.2 fun j _ => preambleChip_sign t j) hv
  have hpeak := peakAt_preambleSignal t a after
  rw [findPeak_eq_peakAt_zero ?cand ?max, hpeak]
  case cand =>
    rw [mem_candidates, List.length_append, preambleSignal_length]
    omega
  case max =>
    intro tau
    have hbound : ((t.corr (preambleSignal t a ++ after) tau).natAbs : Int) ≤ (cleanPeak t a).corr :=
      corr_natAbs_le_of_bounded ha.le (List.forall_mem_append.2 ⟨hpreamble, hafter⟩) t tau
    have hcorr : t.corr (preambleSignal t a ++ after) 0 = (cleanPeak t a).corr := congrArg Peak.corr hpeak
    have hpos := cleanPeak_corr_pos hHb hLp ha
    rw [hcorr]
    omega

/-- A clean preamble passes every threshold up to 256 (R120). -/
theorem cleanPeak_passes {thr : Nat} (hthr : thr ≤ 256) : (cleanPeak t a).passes thr = true := by
  have hpos := cleanPeak_corr_pos hHb hLp ha
  exact (passes_iff _ _).2 ⟨Int.natAbs_ne_zero.2 hpos.ne', Nat.mul_le_mul_right _ hthr⟩

/-- The quality of a clean preamble's peak is 256, the largest there is (R119). -/
theorem cleanPeak_quality : (cleanPeak t a).quality = 256 := by
  have hpos := cleanPeak_corr_pos hHb hLp ha
  rw [quality_eq]
  exact Nat.mul_div_cancel _ (Int.natAbs_pos.2 hpos.ne')

/-- The polarity of a clean preamble's peak is 0 (R119). -/
theorem cleanPeak_not_negative : (cleanPeak t a).negative = false :=
  decide_eq_false (cleanPeak_corr_pos hHb hLp ha).not_gt

end CleanPreamble

/-! The frame of a payload and its CRC (R132 to R134) -/

/-- The 16 bits of a payload's CRC, first bit first. -/
def crcField (c : BaseConfig) (payload : List Bool) : List Bool :=
  List.ofFn fun i : Fin 16 => (crc c.crcPoly c.crcInit c.crcXorout payload).getMsbD i

/-- The CRC field has 16 bits. -/
theorem crcField_length (c : BaseConfig) (payload : List Bool) : (crcField c payload).length = 16 := List.length_ofFn

/-- Decisions of a payload and its CRC give a FRAME_OK record with that payload. -/
theorem frameRecord_of_crcField {c : BaseConfig} {b : Burst} {ds : List Decision} {payload : List Bool}
    (hbits : ds.map (Decision.bit c.lineCode.toNat) = payload ++ crcField c payload)
    (hlen : payload.length = (payloadBits c.epcBits b.hint).toNat) (p : Peak) :
    let r := frameRecord c b p ds
    r.status = .frameOk ∧ r.crcValid = true ∧ r.payload = packPayload payload := by
  have htake : (ds.map (Decision.bit c.lineCode.toNat)).take (payloadBits c.epcBits b.hint).toNat = payload := by
    rw [hbits, ← hlen, List.take_left]
  have hdrop : ((ds.map (Decision.bit c.lineCode.toNat)).drop (payloadBits c.epcBits b.hint).toNat).take 16
      = crcField c payload := by
    rw [hbits, ← hlen, List.drop_left, List.take_of_length_le (crcField_length c payload).le]
  have hmatch : (frameRecord c b p ds).crcCalc = (frameRecord c b p ds).crcRx := by
    simp only [frameRecord, htake, hdrop]
    exact (ofNat_bitsToNat_getMsbD _).symm
  exact ⟨if_pos hmatch, decide_eq_true hmatch, congrArg packPayload htake⟩

/-! The statement about clean replies -/

/-- A clean reply locks at phase 0, is long enough, and its decisions are those of the payload and its CRC. -/
theorem recordOf_clean {c : BaseConfig} {t : Timing} {b : Burst} {frame : List Bool} {after : List Int} {prev : Bool}
    {level a : Int} (hHb : 0 < t.halfBit) (hwindow : 0 < t.window) (hLp : 0 < t.preambleLen)
    (hthr : c.syncThr.toNat ≤ 256) (ha : 0 < a) (hlevel : level = 1 ∨ level = -1) (hafter : ∀ v ∈ after, |v| ≤ a)
    (hhint : b.hint ≠ .none) (hlen : frame.length = (payloadBits c.epcBits b.hint).toNat + 16)
    (hsig : demodSignal b.samples
      = preambleSignal t a ++ (levelsSignal t a (lineLevels t.lineCode level prev frame) ++ after)) :
    recordOf c t b
      = frameRecord c b (cleanPeak t a) (codedDecisions t.lineCode (a * t.halfBit) level prev frame) := by
  have hquiet : ∀ v ∈ levelsSignal t a (lineLevels t.lineCode level prev frame) ++ after, |v| ≤ a :=
    List.forall_mem_append.2
      ⟨fun v hv => abs_le_of_mem_levelsSignal ha (fun x hx => sign_of_mem_lineLevels hlevel hx) hv, hafter⟩
  have hpeak : t.findPeak (demodSignal b.samples) = some (cleanPeak t a) :=
    hsig ▸ findPeak_preambleSignal hHb hLp ha hwindow hquiet
  have hstart : t.dataStart (cleanPeak t a) = (preambleSignal t a).length := by
    rw [Timing.dataStart, preambleSignal_length]
    exact Nat.zero_add _
  have hlong : ¬ b.samples.length
      < (preambleSignal t a).length + 2 * ((payloadBits c.epcBits b.hint).toNat + 16) * t.halfBit := by
    rw [← demodSignal_length, hsig, List.length_append, List.length_append, levelsSignal_length, lineLevels_length,
      hlen]
    omega
  rw [recordOf_of_peak hhint hpeak, if_neg (by rw [cleanPeak_passes hHb hLp ha hthr]; decide), hstart]
  refine (if_neg hlong).trans ?_
  rw [hsig, ← hlen, ← List.append_assoc, decisions_levelsSignal]

/-- Settles O39: the search locks to the preamble, and the coded decisions give the payload and its CRC. -/
theorem cleanReplyDecodesToItsPayload : Obligations.CleanReplyDecodesToItsPayload := by
  intro c t b payload after prev level a hlc hHb hwindow hLp _ hthr ha hlevel hafter hhint hlen hsig
  have hpos : 0 < a * (t.halfBit : Int) := mul_pos ha (Int.natCast_pos.2 hHb)
  have hframeLen : (payload ++ crcField c payload).length = (payloadBits c.epcBits b.hint).toNat + 16 := by
    rw [List.length_append, crcField_length, hlen]
  have hrecord := recordOf_clean hHb hwindow hLp hthr ha hlevel (fun v hv => Int.natCast_natAbs v ▸ hafter v hv) hhint
    hframeLen (by rw [hsig, levelsSignal_append, List.append_assoc]; rfl)
  rw [hlc] at hrecord
  obtain ⟨hstatus, hvalid, hpayload⟩ :=
    frameRecord_of_crcField (map_bit_codedDecisions hpos hlevel c.lineCode.toNat prev _) hlen (cleanPeak t a)
  have hviol := violations_codedDecisions hpos hlevel c.lineCode.toNat prev (payload ++ crcField c payload)
  rw [hrecord]
  refine ⟨hstatus, hvalid, fun h => congrArg Expect.kind h, fun h => congrArg Expect.kind h, hlen.symm, hpayload, rfl,
    congrArg (BitVec.ofNat 9) (cleanPeak_quality hHb hLp ha), cleanPeak_not_negative hHb hLp ha,
    congrArg count16 hviol, fun hconf => ?_⟩
  have hlow := lowConfidence_codedDecisions hlevel hconf c.lineCode.toNat prev (payload ++ crcField c payload)
  refine ⟨congrArg count16 hlow, ?_⟩
  rw [frameRecord_collision_iff, hviol, hlow, ← BitVec.toNat_inj]
  exact Nat.le_zero

end Sys2Proof.Proofs
end

section
/-! DECODE and DIAG_DRAIN (43_frame_crc_collision.md R141 to R145): the counters of a record, and the diagnostic copy of
a burst. -/

namespace Sys2Proof.Proofs

open Sys2Proof.Machine

/-- The counters after a record: one more of its status, and one more collision for a flagged record (R142). -/
def recordCounters (r : Record) (c : Counters) : Counters :=
  { c with
    crcOk := if r.status = .frameOk then saturated c.crcOk else c.crcOk
    crcBad := if r.status = .crcInvalid then saturated c.crcBad else c.crcBad
    syncFail := if r.status = .syncFailure then saturated c.syncFail else c.syncFail
    lenMismatch := if r.status = .lengthMismatch then saturated c.lenMismatch else c.lenMismatch
    unsolicited := if r.status = .unsolicited then saturated c.unsolicited else c.unsolicited
    collision := if r.collision = true then saturated c.collision else c.collision }

/-- Counting a record takes the counters there and changes nothing else. -/
theorem countRecord_eq (r : Record) (s : State) :
    s.countRecord r = { s with counters := recordCounters r s.counters } := by
  simp only [recordCounters, ← satInc_eq_saturated]
  cases hstatus : r.status with
  | frameOk | crcInvalid | syncFailure | lengthMismatch | unsolicited =>
    cases hflag : r.collision <;> simp [State.countRecord, hstatus, hflag, RecStatus.event, State.count, Counters.bump]

/-- What DECODE does with the head burst, with the counters written out (R141, R142, R144). -/
theorem decodeBurst_eq (b : Burst) (rest : List Burst) (s : State) :
    s.decodeBurst b rest =
      State.countRecord (recordOf s.active s.timing b)
        { s with
          bq := rest
          dq := if s.diagEn = true then s.dq ++ diagEntries b.samples else s.dq
          oq := s.oq ++ [recordOf s.active s.timing b] } := by
  rw [State.decodeBurst, diagCopy_eq]

/-- The diagnostic entry of sample i is its word, marked exactly when it is the burst's last (R144). -/
theorem diagEntries_getElem? : ∀ (xs : List Word) (i : Nat),
    (diagEntries xs)[i]? = xs[i]?.map fun w => ⟨w, decide (i + 1 = xs.length)⟩
  | [], _ => rfl
  | [_], 0 => rfl
  | [_], _ + 1 => rfl
  | _ :: _ :: _, 0 => rfl
  | _ :: y :: ys, i + 1 => by
    simpa [diagEntries] using diagEntries_getElem? (y :: ys) i

/-- Settles O44: DECODE is enabled, and its record is counted by its status and its flag. -/
theorem decodeTakesHeadBurst : Obligations.DecodeTakesHeadBurst := by
  intro s b rest hrun hbq hoq hroom
  have hen : decodeEnabled s = true := (decodeEnabled_iff s).2 ⟨b, rest, hbq, hrun, hoq, hroom⟩
  refine ⟨recordCounters (recordOf s.active s.timing b) s.counters, ?_, rfl, rfl, rfl, rfl, rfl, rfl, rfl, rfl, rfl⟩
  rw [exec_decode_of_enabled hbq hen, decodeBurst_eq, countRecord_eq]
  rfl

/-- Settles O45: the copy marks the last entry of a burst, and the sink takes the head entry. -/
theorem diagnosticCopyAndDrain : Obligations.DiagnosticCopyAndDrain := by
  refine ⟨fun xs i w hw => ⟨diagEntries_length xs, ?_⟩, fun s e rest h => exec_diagDrain_of_cons h⟩
  rw [diagEntries_getElem?, hw, Option.map_some]

end Sys2Proof.Proofs
end

section
/-! The events that reach the host (60_exceptions.md R154, R157, R158): the causes of CommandError over every operation,
and the interrupt line. -/

namespace Sys2Proof.Proofs

open Sys2Proof.Machine

/-! The interrupt line (R157, R158) -/

/-- The interrupt line in terms of the enables, the sticky bits and the output FIFO (R157). -/
theorem irq_iff (s : State) :
    irq s = true ↔
      (s.irqEn.cfgErrEn = true ∧ s.configErr = true) ∨ (s.irqEn.cmdErrEn = true ∧ s.cmdErr = true)
        ∨ (s.irqEn.frameEn = true ∧ s.oq ≠ []) := by
  simp only [irq, frameAvail_eq_decide, Bool.or_eq_true, Bool.and_eq_true, decide_eq_true_iff, or_assoc]

/-- A state without sticky errors and without records does not interrupt, whatever is enabled. -/
theorem irq_of_no_source {s : State} (hcfg : s.configErr = false) (hcmd : s.cmdErr = false) (hoq : s.oq = []) :
    irq s = false := by
  rw [Bool.eq_false_iff, ne_eq, irq_iff]
  simp [hcfg, hcmd, hoq]

/-! A refused operation (R154) -/

/-- Each of the five causes sets CMD_ERR and does nothing else, whether the command comes as a CMD write or not. -/
theorem exec_of_commandErrorCause {i : Instr} {s : State} (hcause : CommandErrorCause i s) :
    exec i s = .next { s with cmdErr := true } := by
  cases i with
  | cmdReserved _ => rfl
  | start => exact exec_start_of_not_ready hcause
  | recompute => exact exec_recompute_of_running hcause
  | pop => exact execPop_of_empty hcause
  | noiseFloorWrite v => exact exec_noiseFloorWrite_of_running hcause v
  | cmdWrite v =>
    rcases hcause with hreserved | ⟨rfl, hnotReady⟩ | ⟨rfl, hrun⟩ | ⟨rfl, hempty⟩
    · exact exec_cmdWrite_of_not_defined hreserved s
    · exact (exec_cmdWrite_word .start s).trans (exec_start_of_not_ready hnotReady)
    · exact (exec_cmdWrite_word .recompute s).trans (exec_recompute_of_running hrun)
    · exact (exec_cmdWrite_word .pop s).trans (execPop_of_empty hempty)
  | nop | stop | armRn16 | armEpc | disarm | clearCounters | softReset | regRead | regWrite => exact hcause.elim
  | statusW1c | sample | decode | diagDrain => exact hcause.elim

/-- A CMD write of a command's full word has the causes of that command (40_host_commands.md R83). -/
theorem commandErrorCause_word_iff (op : CmdOp) (s : State) :
    CommandErrorCause (.cmdWrite op.word) s ↔ CommandErrorCause op.instr s := by
  cases op <;> simp [CommandErrorCause, CmdOp.instr, CmdOp.word, CmdOp.code, definedCmdWords]

/-! An operation without a cause (R154) -/

/-- The operation completes in `s`, and CMD_ERR is 1 after it only if it was 1 before. -/
def CompletesWithoutCommandError (i : Instr) (s : State) : Prop :=
  ∃ t : State, exec i s = .next t ∧ (t.cmdErr = true → s.cmdErr = true)

/-- Every command without a cause completes and does not set CMD_ERR (40_host_commands.md R85 to R94). -/
theorem instr_completes_without_commandError {op : CmdOp} {s : State} (hno : ¬ CommandErrorCause op.instr s) :
    CompletesWithoutCommandError op.instr s := by
  cases op with
  | recompute =>
    have hhalt : s.running = false := Bool.eq_false_iff.2 hno
    by_cases hpass : ConfigPasses s.base
    · exact ⟨_, exec_recompute_of_passes hhalt hpass, id⟩
    · exact ⟨_, exec_recompute_of_not_passes hhalt hpass, id⟩
  | start =>
    obtain ⟨hrun, hok⟩ := not_or.1 hno
    exact ⟨_, exec_start_of_ready (Bool.eq_false_iff.2 hrun) (eq_true_of_ne_false hok), id⟩
  | stop =>
    cases hrun : s.running with
    | true => exact ⟨_, exec_stop_of_running hrun, id⟩
    | false => exact ⟨_, exec_stop_of_halted hrun, id⟩
  | pop =>
    obtain ⟨r, rest, hoq⟩ := List.exists_cons_of_ne_nil hno
    exact ⟨_, execPop_of_cons hoq, id⟩
  | softReset => exact ⟨_, rfl, fun hset => by simp at hset⟩
  | nop | armRn16 | armEpc | disarm | clearCounters => exact ⟨_, rfl, id⟩

/-- SAMPLE, taken or not, does not touch CMD_ERR (41_gate.md R101). -/
theorem sample_completes_without_commandError (w : Word) (s : State) :
    CompletesWithoutCommandError (.sample w) s := by
  cases hen : sampleEnabled s with
  | false => exact ⟨s, exec_sample_of_not_enabled w hen, id⟩
  | true =>
    obtain ⟨hrun, hroom⟩ := (sampleEnabled_iff s).1 hen
    obtain ⟨g, q, c, n, htake⟩ := takeSample_frame w s
    exact ⟨_, (exec_sample_of_enabled w hrun hroom).trans (congrArg Host.Outcome.next htake), id⟩

/-- DECODE, enabled or not, does not touch CMD_ERR (43_frame_crc_collision.md R141). -/
theorem decode_completes_without_commandError (s : State) : CompletesWithoutCommandError .decode s := by
  cases hen : decodeEnabled s with
  | false => exact ⟨s, exec_decode_of_not_enabled hen, id⟩
  | true =>
    obtain ⟨b, rest, hbq, -⟩ := (decodeEnabled_iff s).1 hen
    obtain ⟨c, hdecode⟩ := decodeBurst_frame b rest s
    exact ⟨_, (exec_decode_of_enabled hbq hen).trans (congrArg Host.Outcome.next hdecode), id⟩

/-- DIAG_DRAIN, with an entry or without one, does not touch CMD_ERR (43_frame_crc_collision.md R145). -/
theorem diagDrain_completes_without_commandError (s : State) : CompletesWithoutCommandError .diagDrain s := by
  cases hdq : s.dq with
  | nil => exact ⟨s, exec_diagDrain_of_empty hdq, id⟩
  | cons e rest => exact ⟨_, exec_diagDrain_of_cons hdq, id⟩

/-- A well-formed operation without a cause completes and does not set CMD_ERR. -/
theorem completes_without_commandError {i : Instr} {s : State} (hwf : i.wf = true) (hno : ¬ CommandErrorCause i s) :
    CompletesWithoutCommandError i s := by
  cases i with
  | nop => exact instr_completes_without_commandError (op := .nop) hno
  | recompute => exact instr_completes_without_commandError (op := .recompute) hno
  | start => exact instr_completes_without_commandError (op := .start) hno
  | stop => exact instr_completes_without_commandError (op := .stop) hno
  | armRn16 => exact instr_completes_without_commandError (op := .armRn16) hno
  | armEpc => exact instr_completes_without_commandError (op := .armEpc) hno
  | disarm => exact instr_completes_without_commandError (op := .disarm) hno
  | pop => exact instr_completes_without_commandError (op := .pop) hno
  | clearCounters => exact instr_completes_without_commandError (op := .clearCounters) hno
  | softReset => exact instr_completes_without_commandError (op := .softReset) hno
  | cmdReserved w => exact (hno trivial).elim
  | regRead off => exact ⟨_, exec_regRead_of_aligned hwf s, id⟩
  | regWrite off v =>
    obtain ⟨b, e, d, hwrite⟩ := writeAt_frame off v s
    exact ⟨_, (exec_regWrite_of_wf hwf s).trans (congrArg Host.Outcome.next hwrite), id⟩
  | statusW1c v => exact ⟨_, rfl, fun hset => (Bool.and_eq_true_iff.1 hset).1⟩
  | cmdWrite v =>
    rcases eq_word_or_not_defined v with ⟨op, rfl⟩ | hreserved
    · obtain ⟨t, hexec, hkeep⟩ :=
        instr_completes_without_commandError ((commandErrorCause_word_iff op s).not.1 hno)
      exact ⟨t, (exec_cmdWrite_word op s).trans hexec, hkeep⟩
    · exact (hno (.inl hreserved)).elim
  | noiseFloorWrite v => exact ⟨_, exec_noiseFloorWrite_of_halted (Bool.eq_false_iff.2 hno) v, id⟩
  | sample w => exact sample_completes_without_commandError w s
  | decode => exact decode_completes_without_commandError s
  | diagDrain => exact diagDrain_completes_without_commandError s

/-! The statements -/

/-- Settles O47: each cause takes its operation's refusing branch, and no other branch of any operation sets CMD_ERR. -/
theorem commandErrorHasExactlyFiveCauses : Obligations.CommandErrorHasExactlyFiveCauses :=
  fun _ _ hwf => ⟨exec_of_commandErrorCause, completes_without_commandError hwf⟩

/-- Settles O46: hard reset and SOFT_RESET both leave no sticky error and no record, so nothing drives the line. -/
theorem interruptLine : Obligations.InterruptLine :=
  ⟨irq_iff, ⟨rfl, irq_of_no_source rfl rfl rfl⟩, fun s => ⟨s.softReset, rfl, rfl, irq_of_no_source rfl rfl rfl⟩⟩

end Sys2Proof.Proofs
end

section
/-! Hard reset (70_reset_and_hazards.md R166): the value every register reads after it. -/

namespace Sys2Proof.Proofs

open Sys2Proof.Machine

/-- The registers that read 0 after hard reset and are neither flag registers nor base configuration registers (R166). -/
def zeroAtResetRegs : List Reg :=
  ([.sampleRate, .sps, .halfBit, .syncWindow, .noiseFloor, .sampleIndexLo, .sampleIndexHi, .burstStartLo,
      .burstStartHi] : List Reg)
    ++ CounterReg.all.map Reg.cnt
    ++ ([.outHdr, .outStartLo, .outStartHi, .outEndLo, .outEndHi, .outCrc, .outColl, .outSyncOffset,
      .outSyncQ] : List Reg)
    ++ (List.finRange 16).map Reg.outData

/-- Each of them reads 0: what it shows is 0 itself, or the head of an empty FIFO. -/
theorem readReg_reset_of_zeroAtReset : ∀ r ∈ zeroAtResetRegs, readReg r State.reset = 0 := by decide

/-- STATUS, IRQ_EN and CTRL read 0 after hard reset: no flag is set and both counts in STATUS are 0. -/
theorem readReg_reset_flags :
    readReg .status State.reset = 0 ∧ readReg .irqEn State.reset = 0 ∧ readReg .ctrl State.reset = 0 := by decide

/-- After hard reset the noise floor is 0, so the thresholds are the biases (41_gate.md R96). -/
theorem readReg_reset_thresholds :
    readReg .enterThr State.reset = 1 ∧ readReg .exitThr State.reset = 0 := by decide

/-- Settles O53: each offset is its register's, whose value is computed from the state of hard reset. -/
theorem hardResetValues : Obligations.HardResetValues := by
  obtain ⟨hstatus, hirq, hctrl⟩ := readReg_reset_flags
  obtain ⟨henter, hexit⟩ := readReg_reset_thresholds
  refine ⟨fun _ _ h => h, rfl, readAt_offset .id _, readAt_offset .version _, (readAt_offset .status _).trans hstatus,
    (readAt_offset .irqEn _).trans hirq, (readAt_offset .ctrl _).trans hctrl, (readAt_offset .enterThr _).trans henter,
    (readAt_offset .exitThr _).trans hexit, fun off hoff => ?_, rfl, rfl, rfl, rfl, rfl, rfl,
    irq_of_no_source rfl rfl rfl⟩
  obtain ⟨r, hr, rfl⟩ : ∃ r ∈ zeroAtResetRegs, r.offset = off := List.mem_map.1 hoff
  exact (readAt_offset r _).trans (readReg_reset_of_zeroAtReset r hr)

end Sys2Proof.Proofs
end

section
/-! A stored record is sound (30_encoding.md R72 to R76; 43_frame_crc_collision.md R140): its fields fit its status,
whatever the outcome of its burst. -/

namespace Sys2Proof.Proofs

open Sys2Proof.Machine

/-! The quality and the payload -/

/-- The correlation of a found peak is at most its amplitude, so its quality is at most 256 (42_sync_demod.md R119). -/
theorem quality_le_of_findPeak {t : Timing} {sig : List Int} {p : Peak} (h : t.findPeak sig = some p) :
    p.quality ≤ 256 := by
  have hle : p.corr.natAbs ≤ p.amp := by
    rw [(findPeak_firstLargest h).eq_peakAt]
    exact corr_natAbs_le_amplitude t sig p.offset
  rw [quality_eq]
  exact Nat.div_le_of_le_mul ((Nat.mul_le_mul_left 256 hle).trans_eq (Nat.mul_comm _ _))

/-- The payload words are 0 beyond the payload (30_encoding.md R74). -/
theorem packPayload_mod_eq_zero (bits : List Bool) :
    (packPayload bits).toNat % 2 ^ (512 - bits.length) = 0 := by
  have hdvd := Nat.pow_dvd_pow 2 (Nat.sub_le 512 bits.length)
  rw [packPayload, BitVec.toNat_ofNat]
  exact Nat.mod_eq_zero_of_dvd ((Nat.dvd_mod_iff hdvd).2 (Nat.dvd_mul_left _ _))

/-! The record of each outcome -/

/-- A record without a frame is sound if it is UNSOLICITED exactly when its burst has no hint (R139, R140). -/
theorem emptyRecord_sound {b : Burst} {st : RecStatus} (hframe : (emptyRecord b st).hasFrame = false)
    (hhint : st = .unsolicited ↔ b.hint = .none) : RecordSound (emptyRecord b st) where
  valid := rfl
  kindOfFrame h := by simp [hframe] at h
  crcValidIffOk := by
    have hok : st ≠ .frameOk := by rintro rfl; simp [emptyRecord, Record.hasFrame] at hframe
    simp [emptyRecord, hok]
  crcValidIffEqual h := by simp [hframe] at h
  noFrameNoFields _ := ⟨rfl, rfl, rfl, rfl, rfl, rfl, rfl, rfl⟩
  unsolicitedIffNoHint := hhint
  unsolicitedNoSync _ := ⟨rfl, rfl, rfl⟩
  qualityBound := Nat.zero_le 256
  payloadEnds := by simp only [emptyRecord, BitVec.ofNat_eq_ofNat, BitVec.toNat_ofNat, Nat.zero_mod]

/-- What the sync search reports keeps a record sound, unless it is UNSOLICITED (R140). -/
theorem withPeak_sound {r : Record} {p : Peak} (h : RecordSound r) (hst : r.status ≠ .unsolicited)
    (hq : p.quality ≤ 256) : RecordSound (r.withPeak p) :=
  { h with
    unsolicitedNoSync := fun hst' => absurd hst' hst
    qualityBound := (Nat.mod_le _ _).trans hq }

/-- The record of a decided frame is sound (R132 to R134, R137, R138, R140). -/
theorem frameRecord_sound {c : BaseConfig} {b : Burst} {p : Peak} {ds : List Decision} (hhint : b.hint ≠ .none)
    (hlen : (payloadBits c.epcBits b.hint).toNat ≤ ds.length) (hq : p.quality ≤ 256) :
    RecordSound (frameRecord c b p ds) := by
  have hstatus : (frameRecord c b p ds).status
      = if (frameRecord c b p ds).crcCalc = (frameRecord c b p ds).crcRx then .frameOk else .crcInvalid := rfl
  have hvalid : (frameRecord c b p ds).crcValid = true
      ↔ (frameRecord c b p ds).crcCalc = (frameRecord c b p ds).crcRx :=
    decide_eq_true_iff
  have hframe : (frameRecord c b p ds).hasFrame = true := by
    rw [Record.hasFrame, hstatus]
    split <;> rfl
  have hsolicited : (frameRecord c b p ds).status ≠ .unsolicited := by
    rw [hstatus]
    split <;> simp
  exact
    { valid := rfl
      kindOfFrame := fun _ => by
        change (b.hint = .rn16 ∧ b.hint.kind = .rn16) ∨ (b.hint = .epc ∧ b.hint.kind = .epc)
        cases hb : b.hint with
        | none => exact absurd hb hhint
        | rn16 => exact .inl ⟨rfl, rfl⟩
        | epc => exact .inr ⟨rfl, rfl⟩
      crcValidIffOk := by
        rw [hvalid, hstatus]
        split <;> simp_all
      crcValidIffEqual := fun _ => hvalid
      noFrameNoFields := fun hno => by simp [hframe] at hno
      unsolicitedIffNoHint := iff_of_false hsolicited hhint
      unsolicitedNoSync := fun hst => absurd hst hsolicited
      qualityBound := (Nat.mod_le _ _).trans hq
      payloadEnds := by
        have hbits : ((ds.map (Decision.bit c.lineCode.toNat)).take (payloadBits c.epcBits b.hint).toNat).length
            = (payloadBits c.epcBits b.hint).toNat := by rw [List.length_take, List.length_map, Nat.min_eq_left hlen]
        have hpack := packPayload_mod_eq_zero
          ((ds.map (Decision.bit c.lineCode.toNat)).take (payloadBits c.epcBits b.hint).toNat)
        rwa [hbits] at hpack }

/-- Every record the decoder makes is sound (R141). -/
theorem recordOf_sound (c : BaseConfig) (t : Timing) (b : Burst) : RecordSound (recordOf c t b) := by
  by_cases hhint : b.hint = .none
  · rw [recordOf_of_no_hint hhint]
    exact emptyRecord_sound rfl (iff_of_true rfl hhint)
  have hsync : RecordSound (emptyRecord b .syncFailure) := emptyRecord_sound rfl (iff_of_false (by simp) hhint)
  have hshort : RecordSound (emptyRecord b .lengthMismatch) := emptyRecord_sound rfl (iff_of_false (by simp) hhint)
  cases hpeak : t.findPeak (demodSignal b.samples) with
  | none => exact recordOf_of_no_peak hhint hpeak c ▸ hsync
  | some p =>
    have hq := quality_le_of_findPeak hpeak
    have hlen (k n d0 : Nat) : k ≤ (t.decisions (demodSignal b.samples) d0 (k + n)).length := by
      rw [Timing.decisions, List.length_map, List.length_range]
      exact Nat.le_add_right k n
    rw [recordOf_of_peak hhint hpeak]
    dsimp only
    split
    · exact withPeak_sound hsync (by simp [emptyRecord]) hq
    · split
      · exact withPeak_sound hshort (by simp [emptyRecord]) hq
      · exact frameRecord_sound hhint (hlen _ _ _) hq

end Sys2Proof.Proofs
end

section
/-! What an operation does to the gate, the queues and the latched configuration (10_state.md R42 to R47): the operations
that touch them are named once in `MachineEffect`, and what no operation breaks is a case analysis of it. -/

namespace Sys2Proof.Proofs

open Sys2Proof.Machine

/-! The part of the state the invariant speaks of -/

/-- RUNNING, CONFIG_OK, the active configuration with its derived values, the sample index, the gate and the queues; the
rest is as after hard reset. -/
def machinePart (s : State) : State :=
  { State.reset with
    running := s.running
    configOk := s.configOk
    active := s.active
    derived := s.derived
    sampleIndex := s.sampleIndex
    gate := s.gate
    bq := s.bq
    oq := s.oq
    dq := s.dq }

/-- From `s` to `t` nothing in that part changes. -/
def MachineKept (s t : State) : Prop := machinePart t = machinePart s

/-- What running the rule of an operation in `s` can do to that part. -/
inductive MachineEffect (s : State) : Instr → State → Prop where
  /-- Nothing: most operations, and any that is refused or waits. -/
  | kept (i : Instr) (t : State) (same : MachineKept s t) : MachineEffect s i t
  /-- RECOMPUTE while halted, with a base configuration that passes the check (R85). -/
  | latched (halted : s.running = false) (valid : s.base.valid = true) :
      MachineEffect s .recompute { s with active := s.base, derived := s.base.derive, configOk := true }
  /-- RECOMPUTE while halted, with one that does not (R85). -/
  | rejected (halted : s.running = false) :
      MachineEffect s .recompute { s with configErr := true, configOk := false }
  /-- START with CONFIG_OK (R86). -/
  | started (halted : s.running = false) (configured : s.configOk = true) :
      MachineEffect s .start { s with running := true }
  /-- STOP while running (R87). -/
  | stopped : MachineEffect s .stop s.flush
  /-- POP of the head record (R91). -/
  | popped (r : Record) (rest : List Record) (head : s.oq = r :: rest) : MachineEffect s .pop { s with oq := rest }
  /-- SOFT_RESET (R93). -/
  | softReset : MachineEffect s .softReset s.softReset
  /-- An accepted sample (41_gate.md R101). -/
  | sampled (w : Word) (running : s.running = true) (room : s.bq.length ≠ 2) :
      MachineEffect s (.sample w) (s.takeSample w)
  /-- An enabled DECODE (43_frame_crc_collision.md R141). -/
  | decoded (b : Burst) (rest : List Burst) (head : s.bq = b :: rest) (running : s.running = true)
      (room : s.oq.length < 4) (copyRoom : s.diagEn = false ∨ s.dq.length + b.samples.length ≤ 65536) :
      MachineEffect s .decode (s.decodeBurst b rest)
  /-- DIAG_DRAIN of the head entry (43 R145). -/
  | drained (e : DiagEntry) (rest : List DiagEntry) (head : s.dq = e :: rest) :
      MachineEffect s .diagDrain { s with dq := rest, delivered := s.delivered ++ [e] }

/-- RECOMPUTE in each state (R85). -/
theorem recompute_machineEffect {s t : State} (h : exec .recompute s = .next t) : MachineEffect s .recompute t := by
  cases hrun : s.running with
  | true => cases (exec_recompute_of_running hrun).symm.trans h; exact .kept _ _ rfl
  | false =>
    by_cases hpass : ConfigPasses s.base
    · cases (exec_recompute_of_passes hrun hpass).symm.trans h
      exact .latched hrun ((valid_iff_configPasses s.base).2 hpass)
    · cases (exec_recompute_of_not_passes hrun hpass).symm.trans h
      exact .rejected hrun

/-- START in each state (R86). -/
theorem start_machineEffect {s t : State} (h : exec .start s = .next t) : MachineEffect s .start t := by
  by_cases hno : s.running = true ∨ s.configOk = false
  · cases (exec_start_of_not_ready hno).symm.trans h
    exact .kept _ _ rfl
  · obtain ⟨hhalt, hok⟩ : s.running = false ∧ s.configOk = true := by simpa using hno
    cases (exec_start_of_ready hhalt hok).symm.trans h
    exact .started hhalt hok

/-- STOP in each state (R87). -/
theorem stop_machineEffect {s t : State} (h : exec .stop s = .next t) : MachineEffect s .stop t := by
  cases hrun : s.running with
  | true => cases (exec_stop_of_running hrun).symm.trans h; exact .stopped
  | false => cases (exec_stop_of_halted hrun).symm.trans h; exact .kept _ _ rfl

/-- POP in each state (R91). -/
theorem pop_machineEffect {s t : State} (h : exec .pop s = .next t) : MachineEffect s .pop t := by
  cases hoq : s.oq with
  | nil => cases (execPop_of_empty hoq).symm.trans h; exact .kept _ _ rfl
  | cons r rest => cases (execPop_of_cons hoq).symm.trans h; exact .popped r rest hoq

/-- Every command has its effect (R85 to R94). -/
theorem instr_machineEffect {op : CmdOp} {s t : State} (h : exec op.instr s = .next t) :
    MachineEffect s op.instr t := by
  cases op with
  | recompute => exact recompute_machineEffect h
  | start => exact start_machineEffect h
  | stop => exact stop_machineEffect h
  | pop => exact pop_machineEffect h
  | softReset => cases h; exact .softReset
  | nop | armRn16 | armEpc | disarm | clearCounters => cases h; exact .kept _ _ rfl

/-- A CMD write has the effect of the command its data word is, or none (R83; 30_encoding.md R69). -/
theorem cmdWrite_machineEffect {v : Word} {s t : State} (h : exec (.cmdWrite v) s = .next t) :
    MachineEffect s (ruleRun (.cmdWrite v)) t := by
  rcases cmdWrite_cases v s with ⟨op, hrule, hexec⟩ | ⟨-, hexec⟩
  · exact hrule ▸ instr_machineEffect ((execCommand_eq_exec op s).symm.trans (hexec.symm.trans h))
  · cases hexec.symm.trans h
    exact .kept _ _ rfl

/-- SAMPLE, taken or not (41_gate.md R101). -/
theorem sample_machineEffect {w : Word} {s t : State} (h : exec (.sample w) s = .next t) :
    MachineEffect s (.sample w) t := by
  cases hen : sampleEnabled s with
  | false => cases (exec_sample_of_not_enabled w hen).symm.trans h; exact .kept _ _ rfl
  | true =>
    obtain ⟨hrun, hroom⟩ := (sampleEnabled_iff s).1 hen
    cases (exec_sample_of_enabled w hrun hroom).symm.trans h
    exact .sampled w hrun hroom

/-- DECODE, enabled or not (43_frame_crc_collision.md R141). -/
theorem decode_machineEffect {s t : State} (h : exec .decode s = .next t) : MachineEffect s .decode t := by
  cases hen : decodeEnabled s with
  | false => cases (exec_decode_of_not_enabled hen).symm.trans h; exact .kept _ _ rfl
  | true =>
    obtain ⟨b, rest, hbq, hrun, hroom, hcopy⟩ := (decodeEnabled_iff s).1 hen
    cases (exec_decode_of_enabled hbq hen).symm.trans h
    exact .decoded b rest hbq hrun hroom hcopy

/-- DIAG_DRAIN, with an entry or without one (43 R145). -/
theorem diagDrain_machineEffect {s t : State} (h : exec .diagDrain s = .next t) : MachineEffect s .diagDrain t := by
  cases hdq : s.dq with
  | nil => cases (exec_diagDrain_of_empty hdq).symm.trans h; exact .kept _ _ rfl
  | cons e rest => cases (exec_diagDrain_of_cons hdq).symm.trans h; exact .drained e rest hdq

/-- Every well-formed operation has the effect of the rule it runs. -/
theorem exec_machineEffect {i : Instr} {s t : State} (hwf : i.wf = true) (h : exec i s = .next t) :
    MachineEffect s (ruleRun i) t := by
  cases i with
  | nop => exact instr_machineEffect (op := .nop) h
  | recompute => exact recompute_machineEffect h
  | start => exact start_machineEffect h
  | stop => exact stop_machineEffect h
  | armRn16 => exact instr_machineEffect (op := .armRn16) h
  | armEpc => exact instr_machineEffect (op := .armEpc) h
  | disarm => exact instr_machineEffect (op := .disarm) h
  | pop => exact pop_machineEffect h
  | clearCounters => exact instr_machineEffect (op := .clearCounters) h
  | softReset => exact instr_machineEffect (op := .softReset) h
  | cmdReserved w => cases h; exact .kept _ _ rfl
  | regRead off => cases (exec_regRead_of_aligned hwf s).symm.trans h; exact .kept _ _ rfl
  | regWrite off v =>
    obtain ⟨b, e, d, hwrite⟩ := writeAt_frame off v s
    cases (exec_regWrite_of_wf hwf s).symm.trans h
    exact hwrite ▸ .kept _ _ rfl
  | statusW1c v => cases h; exact .kept _ _ rfl
  | cmdWrite v => exact cmdWrite_machineEffect h
  | noiseFloorWrite v =>
    cases h
    split
    · exact .kept _ _ rfl
    · exact .kept _ _ rfl
  | sample w => exact sample_machineEffect h
  | decode => exact decode_machineEffect h
  | diagDrain => exact diagDrain_machineEffect h

/-! The output FIFO -/

/-- POP's rule is run by POP and by the CMD write of it alone. -/
theorem ruleRun_eq_pop_iff (i : Instr) : ruleRun i = .pop ↔ i = .pop ∨ i = .cmdWrite 0x00000007 :=
  ruleRun_eq_instr_iff i .pop

/-- Of the effects only POP and SOFT_RESET take records from the output FIFO; DECODE adds one at its end (10_state.md
R46; 70_reset_and_hazards.md R175). -/
theorem oq_kept_of_effect {j : Instr} {s t : State} (heff : MachineEffect s j t) (hpop : j ≠ .pop)
    (hreset : j ≠ .softReset) : s.oq <+: t.oq := by
  cases heff with
  | kept _ _ same => exact (congrArg State.oq same).symm ▸ List.prefix_rfl
  | latched | rejected | started | stopped | drained => exact List.prefix_rfl
  | popped => exact absurd rfl hpop
  | softReset => exact absurd rfl hreset
  | sampled w =>
    obtain ⟨g, q, c, n, htake⟩ := takeSample_frame w s
    rw [htake]
  | decoded b rest =>
    obtain ⟨c, hdecode⟩ := decodeBurst_frame b rest s
    rw [hdecode]
    exact List.prefix_append _ _

/-- Settles O51: the effect of the operation is not POP's and not SOFT_RESET's, so the FIFO keeps what it held. -/
theorem headRecordStaysUntilPop : Obligations.HeadRecordStaysUntilPop := by
  intro i s t r rest hwf h hoq hpop hreset hcmdPop hcmdReset
  have hnotPop : ruleRun i ≠ .pop := fun hrule => ((ruleRun_eq_pop_iff i).1 hrule).elim hpop hcmdPop
  have hnotReset : ruleRun i ≠ .softReset := fun hrule =>
    ((ruleRun_eq_softReset_iff i).1 hrule).elim hreset hcmdReset
  obtain ⟨more, hmore⟩ := oq_kept_of_effect (exec_machineEffect hwf h) hnotPop hnotReset
  exact ⟨more, hoq ▸ hmore.symm⟩

end Sys2Proof.Proofs
end

section
/-! The invariant of the machine (70_reset_and_hazards.md R169; 10_state.md R43 to R46; 00_scope.md R15): it holds after
hard reset, and every step of every agent keeps it. -/

namespace Sys2Proof.Proofs

open Sys2Proof.Machine

/-! What the invariant depends on -/

/-- The invariant speaks of the machine's part of the state alone. -/
theorem inv_machinePart_iff (s : State) : Inv (machinePart s) ↔ Inv s :=
  ⟨fun h => { h with accumulating := fun hacc => { h.accumulating hacc with } },
    fun h => { h with accumulating := fun hacc => { h.accumulating hacc with } }⟩

/-- A state that agrees on that part has the invariant too. -/
theorem inv_of_machineKept {s t : State} (h : Inv s) (same : MachineKept s t) : Inv t :=
  (inv_machinePart_iff t).1 (same ▸ (inv_machinePart_iff s).2 h)

/-- A halted machine with an idle gate, no queued burst, and its other queues and its configuration in order. -/
theorem inv_of_halted {s : State} (hhalt : s.running = false) (hgate : s.gate = Gate.idle) (hbq : s.bq = [])
    (hconf : s.configOk = true → s.active.valid = true ∧ s.derived = s.active.derive)
    (hoq : s.oq.length ≤ Config.outQDepth) (hdq : s.dq.length ≤ Config.diagQDepth) (hrec : ∀ r ∈ s.oq, RecordSound r) :
    Inv s where
  haltedIsIdle _ := ⟨hgate, hbq⟩
  searchingIsIdle _ := hgate
  accumulating hacc := by simp [hgate, Gate.idle] at hacc
  runningIsConfigured hrun := by simp [hhalt] at hrun
  configuredIsValid := hconf
  burstQBound := by simp [hbq]
  outQBound := hoq
  diagQBound := hdq
  burstsSound := by simp [hbq]
  recordsSound := hrec

/-- The state of hard reset has the invariant, whatever the streams and the turns outside the block hold (R166). -/
theorem inv_hardReset (s : State) : Inv s.hardReset :=
  inv_of_halted rfl rfl rfl (by simp [State.reset]) (Nat.zero_le _) (Nat.zero_le _) (by simp [State.reset])

/-- A running machine has the lengths of a configuration that passed the check, whatever its gate holds
(40_host_commands.md R84 V12, V13). -/
theorem lengths_of_inv_running {s : State} {g : Gate} (h : Inv { s with gate := g }) (hrun : s.running = true) :
    1 ≤ s.active.dwell.toNat ∧ 1 ≤ s.active.minLen.toNat ∧ s.active.minLen.toNat ≤ s.active.maxLen.toNat
      ∧ s.active.maxLen.toNat ≤ 65536 := by
  obtain ⟨-, -, -, -, -, -, -, -, -, -, -, ⟨hdwell, -⟩, hlengths⟩ :=
    (valid_iff_configPasses s.active).1 (h.configuredIsValid (h.runningIsConfigured hrun)).1
  exact ⟨hdwell, hlengths⟩

/-! The gate (41_gate.md) -/

/-- Discarding what the gate has accumulated keeps the invariant, at any sample index. -/
theorem inv_idleGate {s : State} (h : Inv s) (i : Index) : Inv { s with gate := Gate.idle, sampleIndex := i } :=
  { h with
    haltedIsIdle := fun hhalt => ⟨rfl, (h.haltedIsIdle hhalt).2⟩
    searchingIsIdle := fun _ => rfl
    accumulating := fun hacc => by simp [Gate.idle] at hacc }

/-- A running machine that has the invariant but for its gate has it if the gate accumulates as it should. -/
theorem inv_of_accumulating {s : State} (h : Inv { s with gate := Gate.idle }) (hrun : s.running = true)
    (hgst : s.gate.gst = .accumulating) (hacc : Accumulating s) : Inv s :=
  { h with
    haltedIsIdle := fun hhalt => by simp [hrun] at hhalt
    searchingIsIdle := fun hsearch => by simp [hgst] at hsearch
    accumulating := fun _ => hacc }

/-- One more sound burst in a queue with room, made while running with an idle gate. -/
theorem inv_enqueue {s : State} (h : Inv s) (hrun : s.running = true) (hroom : s.bq.length ≠ 2) {b : Burst}
    (hb : BurstSound s.active b) : Inv { s with bq := s.bq ++ [b] } :=
  { h with
    haltedIsIdle := fun hhalt => by simp [hrun] at hhalt
    accumulating := fun hacc => { h.accumulating hacc with }
    burstQBound := by
      have hbound : s.bq.length ≤ 2 := h.burstQBound
      rw [List.length_append, List.length_singleton, Config.burstQDepth]
      omega
    burstsSound := List.forall_mem_append.2 ⟨h.burstsSound, List.forall_mem_singleton.2 hb⟩ }

/-- Finalizing keeps the invariant: the burst it queues ends inside the gate's buffer, is within MAX_LEN, and holds
MAX_LEN samples if it is forced (R104, R106). -/
theorem inv_finalize {s : State} {e : Index} {f : Bool} (h : Inv { s with gate := Gate.idle })
    (hrun : s.running = true) (hroom : s.bq.length ≠ 2) (hbuf : (e - s.gate.gStart).toNat ≤ s.gate.gBuf.length)
    (hmax : (e - s.gate.gStart).toNat ≤ s.active.maxLen.toNat)
    (hforced : f = true → (e - s.gate.gStart).toNat = s.active.maxLen.toNat) : Inv (s.finalize e f) := by
  rcases finalize_cases e f s with ⟨-, hshort⟩ | ⟨hmin, c, hkept⟩
  · exact inv_of_machineKept h (hshort ▸ rfl)
  · have hlen : (s.gate.gBuf.take (e - s.gate.gStart).toNat).length = (e - s.gate.gStart).toNat :=
      List.length_take_of_le hbuf
    have hsound : BurstSound s.active
        ⟨s.gate.gStart, e, s.gate.gBuf.take (e - s.gate.gStart).toNat, s.gate.gHint, f⟩ :=
      ⟨hlen, hmin.trans_eq hlen.symm, hlen.trans_le hmax, fun hf => hlen.trans (hforced hf)⟩
    exact inv_of_machineKept (inv_enqueue h hrun hroom hsound) (hkept ▸ rfl)

/-- One index further the span since the start of a burst is one more, as no burst is long enough to wrap around. -/
theorem span_succ {i start : Index} {n : Nat} (h : (i - start).toNat = n) (hn : n < 65536) :
    (i + 1 - start).toNat = n + 1 := by
  bv_omega

/-- The indices a burst spans once its quiet tail of DWELL samples is cut off (R103). -/
theorem span_dwell {i start : Index} {n : Nat} {dwell : Word} (h : (i - start).toNat = n) (hn : n < 65536)
    (hdwell : dwell.toNat ≤ n + 1) : (i + 1 - dwell.setWidth 64 - start).toNat = n + 1 - dwell.toNat := by
  bv_omega

/-- A triggering sample in SEARCHING opens a burst of one sample, which at MAX_LEN = 1 is forced at once (R101, R104). -/
theorem inv_openBurst {s : State} {i : Index} {w : Word} (h : Inv { s with gate := Gate.idle })
    (hrun : s.running = true) (hroom : s.bq.length ≠ 2) (hindex : s.sampleIndex = i + 1) : Inv (s.openBurst i w) := by
  obtain ⟨hdwell, hmin, hminMax, -⟩ := lengths_of_inv_running h hrun
  have hone : (i + 1 - i).toNat = 1 := by rw [add_sub_cancel_left]; rfl
  rw [openBurst_eq]
  split
  next hmax => exact inv_finalize h hrun hroom hone.le (hone.trans_le hmax.ge) fun _ => hone.trans hmax.symm
  next hmax =>
    exact inv_of_accumulating h hrun rfl
      { nonempty := Nat.one_pos
        belowMax := by change 1 < s.active.maxLen.toNat; omega
        quietBelowDwell := hdwell
        quietIsTail := Nat.one_pos
        contiguous := hindex ▸ hone }

/-- A sample makes the quiet run one longer or ends it (R101). -/
theorem quietCount_le (s : State) (w : Word) : quietCount s w ≤ s.gate.gQuiet + 1 := by
  unfold quietCount
  split
  · exact le_rfl
  · exact Nat.zero_le _

/-- A sample in ACCUMULATING: it completes the dwell, or else the length, or else the gate goes on (R101, R103 to R105).
`h` and `hacc` are what the invariant says before the sample, whose index is `i`. -/
theorem inv_extendBurst {s : State} {i : Index} {w : Word} (h : Inv { s with gate := Gate.idle })
    (hacc : Accumulating { s with sampleIndex := i }) (hgst : s.gate.gst = .accumulating) (hrun : s.running = true)
    (hroom : s.bq.length ≠ 2) (hindex : s.sampleIndex = i + 1) : Inv (s.extendBurst i w) := by
  obtain ⟨-, hbelow, hquiet, htail, hspan⟩ := hacc
  obtain ⟨-, -, -, hmaxBurst⟩ := lengths_of_inv_running h hrun
  dsimp only at hbelow hquiet htail hspan
  have hcount := quietCount_le s w
  have hsucc := span_succ hspan (hbelow.trans_le hmaxBurst)
  have hbuf : (appendSample w s).gate.gBuf.length = s.gate.gBuf.length + 1 := List.length_append
  rw [extendBurst_eq]
  split_ifs with hdwell hmax
  · have hcut := span_dwell hspan (hbelow.trans_le hmaxBurst) (dwell := s.active.dwell) (by omega)
    refine inv_finalize (s := appendSample w s) h hrun hroom ?_ ?_ (fun hf => by cases hf)
    · exact hcut.trans_le (by omega)
    · exact hcut.trans_le (by change _ ≤ s.active.maxLen.toNat; omega)
  · have hlen := hsucc.trans hmax
    exact inv_finalize (s := appendSample w s) h hrun hroom (hsucc.trans_le hbuf.ge) hlen.le fun _ => hlen
  · refine inv_of_accumulating (s := appendSample w s) h hrun hgst ?_
    exact
      { nonempty := by omega
        belowMax := by change _ < s.active.maxLen.toNat; omega
        quietBelowDwell := by change quietCount s w < s.active.dwell.toNat; omega
        quietIsTail := by change quietCount s w < _; omega
        contiguous := by
          change (s.sampleIndex - s.gate.gStart).toNat = _
          rw [hindex, hsucc, hbuf] }

/-- An accepted sample keeps the invariant (R101). -/
theorem inv_takeSample {s : State} (h : Inv s) (hrun : s.running = true) (hroom : s.bq.length ≠ 2) (w : Word) :
    Inv (s.takeSample w) := by
  have hidle := inv_idleGate h (s.sampleIndex + 1)
  rcases takeSample_cases w s with ⟨hgst, -, htake⟩ | ⟨-, -, htake⟩ | ⟨hgst, htake⟩
  · rw [← h.searchingIsIdle hgst] at hidle
    exact inv_of_machineKept hidle (htake ▸ rfl)
  · exact htake ▸ inv_openBurst hidle hrun hroom rfl
  · exact htake ▸ inv_extendBurst (s := { s with sampleIndex := s.sampleIndex + 1 }) hidle (h.accumulating hgst) hgst
      hrun hroom rfl

/-! The decoder and the sink (43_frame_crc_collision.md) -/

/-- An enabled DECODE keeps the invariant: the record it adds is sound, and both its queues have room (R141, R144). -/
theorem inv_decodeBurst {s : State} (h : Inv s) {b : Burst} {rest : List Burst} (hbq : s.bq = b :: rest)
    (hrun : s.running = true) (hroom : s.oq.length < 4)
    (hcopy : s.diagEn = false ∨ s.dq.length + b.samples.length ≤ 65536) : Inv (s.decodeBurst b rest) := by
  obtain ⟨c, hdecode⟩ := decodeBurst_frame b rest s
  rw [hdecode]
  have hbound := h.burstQBound
  have hsound := h.burstsSound
  rw [hbq] at hbound hsound
  exact
    { h with
      haltedIsIdle := fun hhalt => by simp [hrun] at hhalt
      accumulating := fun hacc => { h.accumulating hacc with }
      burstQBound := (Nat.le_succ _).trans hbound
      outQBound := by
        rw [List.length_append, List.length_singleton]
        exact hroom
      diagQBound := by
        dsimp only
        split
        next hen =>
          rw [List.length_append, diagEntries_length]
          exact hcopy.resolve_left (by simp [hen])
        next => exact h.diagQBound
      burstsSound := (List.forall_mem_cons.1 hsound).2
      recordsSound :=
        List.forall_mem_append.2 ⟨h.recordsSound, List.forall_mem_singleton.2 (recordOf_sound _ _ _)⟩ }

/-! Every operation and every turn -/

/-- Whatever an operation can do to the machine keeps the invariant. -/
theorem inv_of_effect {j : Instr} {s t : State} (h : Inv s) (heff : MachineEffect s j t) : Inv t := by
  cases heff with
  | kept _ _ same => exact inv_of_machineKept h same
  | latched halted valid =>
    obtain ⟨hgate, hbq⟩ := h.haltedIsIdle halted
    exact inv_of_halted halted hgate hbq (fun _ => ⟨valid, rfl⟩) h.outQBound h.diagQBound h.recordsSound
  | rejected halted =>
    obtain ⟨hgate, hbq⟩ := h.haltedIsIdle halted
    exact inv_of_halted halted hgate hbq (by simp) h.outQBound h.diagQBound h.recordsSound
  | started halted configured =>
    exact
      { h with
        haltedIsIdle := fun hhalt => by simp at hhalt
        accumulating := fun hacc => { h.accumulating hacc with }
        runningIsConfigured := fun _ => configured }
  | stopped => exact inv_of_halted rfl rfl rfl h.configuredIsValid h.outQBound h.diagQBound h.recordsSound
  | popped r rest head =>
    have hbound := h.outQBound
    have hsound := h.recordsSound
    rw [head] at hbound hsound
    exact
      { h with
        accumulating := fun hacc => { h.accumulating hacc with }
        outQBound := (Nat.le_succ _).trans hbound
        recordsSound := (List.forall_mem_cons.1 hsound).2 }
  | softReset =>
    exact inv_of_halted rfl rfl rfl h.configuredIsValid (Nat.zero_le _) (Nat.zero_le _) (by simp)
  | sampled w running room => exact inv_takeSample h running room w
  | decoded b rest head running room copyRoom => exact inv_decodeBurst h head running room copyRoom
  | drained e rest head =>
    have hbound := h.diagQBound
    rw [head] at hbound
    exact
      { h with
        accumulating := fun hacc => { h.accumulating hacc with }
        diagQBound := (Nat.le_succ _).trans hbound }

/-- Handing a word over changes the input stream alone (41_gate.md R101). -/
theorem machineKept_handOver (turn : Turn) (s : State) : MachineKept s (s.handOver turn) := by
  cases turn with
  | source =>
    cases hen : sampleEnabled s with
    | true => rw [handOver_source_of_enabled hen]; rfl
    | false => rw [handOver_source_of_not_enabled hen]; rfl
  | host _ | command _ | decoder | sink | platformReset => rfl

/-- A step changes nothing in the machine's part, or it is hard reset, or it runs a well-formed operation in a state that
agrees on that part (00_scope.md R7, R8). -/
theorem step_cases {s t : State} (h : step s = .next t) :
    MachineKept s t ∨ (∃ u : State, t = u.hardReset)
      ∨ ∃ (i : Instr) (u : State), i.wf = true ∧ MachineKept s u ∧ exec i u = .next t := by
  cases hturns : s.turns with
  | nil =>
    have hself : step s = .next s := by rw [step, fetchNext, hturns]
    cases hself.symm.trans h
    exact .inl rfl
  | cons turn rest =>
    cases hu : presented turn { s with turns := rest } with
    | some unit =>
      cases hi : decode unit with
      | error e => cases (step_of_rejected hturns hu hi).symm.trans h
      | ok i =>
        have hkept : MachineKept s (State.handOver turn { s with turns := rest }) := machineKept_handOver turn _
        exact .inr (.inr ⟨i, _, (encodeOfDecode unit i hi).1, hkept, (step_of_presented hturns hu hi).symm.trans h⟩)
    | none =>
      cases turn with
      | platformReset =>
        have hreset : step s = .next (State.hardReset { s with turns := rest }) := by
          rw [step, fetchNext, hturns]
          rfl
        cases hreset.symm.trans h
        exact .inr (.inl ⟨_, rfl⟩)
      | source =>
        have hin : s.input = [] := by simpa [presented] using hu
        cases (step_source_of_no_input hturns hin).symm.trans h
        exact .inl rfl
      | host _ | command _ | decoder | sink => cases hu

/-! The statements -/

/-- Settles O54: the state of hard reset is what hard reset makes of itself. -/
theorem invariantHoldsAtReset : Obligations.InvariantHoldsAtReset := inv_hardReset State.reset

/-- Settles O55: by what the step can be, and for an operation by its effect. -/
theorem everyStepKeepsInvariant : Obligations.EveryStepKeepsInvariant := by
  intro s t h hstep
  rcases step_cases hstep with hkept | ⟨u, rfl⟩ | ⟨i, u, hwf, hkept, hexec⟩
  · exact inv_of_machineKept h hkept
  · exact inv_hardReset u
  · exact inv_of_effect (inv_of_machineKept h hkept) (exec_machineEffect hwf hexec)

end Sys2Proof.Proofs
end

section
/-! Steps that run no operation: no turn, a source without a word, and the platform's reset (00_scope.md R8;
70_reset_and_hazards.md R166; log entries 2 and 9). -/

namespace Sys2Proof.Proofs

open Sys2Proof.Machine

/-- With no turn waiting the machine stands still. -/
theorem step_of_no_turns {s : State} (ht : s.turns = []) : step s = .next s := by
  have hf : fetchNext s = .settled s := by rw [fetchNext, ht]
  rw [step, hf]

/-- The platform's turn is hard reset, in the state that has used the turn up. -/
theorem step_platformReset {s : State} {rest : List Turn} (ht : s.turns = .platformReset :: rest) :
    step s = .next (State.hardReset { s with turns := rest }) := by
  have hf : fetchNext s = .settled (State.hardReset { s with turns := rest }) := by
    rw [fetchNext, ht]
    rfl
  rw [step, hf]

/-- Settles O60: one lemma on the step for each of the three turns, hard reset being by definition the reset state
beside what lies outside the block. -/
theorem stepWithoutOperation : Obligations.StepWithoutOperation := fun _ _ =>
  ⟨step_of_no_turns, step_source_of_no_input, step_platformReset⟩

end Sys2Proof.Proofs
end
